-- ==== Sys2Proof/Word.lean ====
section
/-! DEFINITION. The word types of the block (spec 00_scope R7, 20_memory R30, 30_encoding R51 and R53). Every value is unsigned. -/

namespace Sys2Proof

/-- A byte, `u8` of 00_scope R7. -/
abbrev Byte := BitVec 8

/-- `u16` of 00_scope R7: the CRC accumulator and the 16-bit frame fields. -/
abbrev U16 := BitVec 16

/-- An address of the host register space, 20_memory R30. -/
abbrev Addr := BitVec 9

/-- The decode key of a command, 30_encoding R53. -/
abbrev Key := BitVec 16

/-- A host transaction word, 30_encoding R51. -/
abbrev HTWord := BitVec 18

end Sys2Proof
end

