-- ==== Sys2Proof/Config.lean ====
section
/-! DEFINITION. The fixed parameters of the block (spec 00_scope R6) and its free values (93_implementation_defined U5, U6). -/

namespace Sys2Proof

/-- CRC polynomial, reflected form (00_scope R6). -/
abbrev Config.crcPoly : U16 := 0xA001#16

/-- CRC initial value (00_scope R6, 40_crc R72). -/
abbrev Config.crcInit : U16 := 0xFFFF#16

/-- Least robot id the encoder accepts (00_scope R6). -/
abbrev Config.addrMin : Nat := 1

/-- Greatest robot id the encoder accepts (00_scope R6, 90_conflicts C4). -/
abbrev Config.addrMax : Nat := 4

/-- OPCNT range of the mission frame (00_scope R6). -/
abbrev Config.opcntMin : Nat := 1

/-- OPCNT range of the mission frame (00_scope R6). -/
abbrev Config.opcntMax : Nat := 3

/-- Number of operations of the mission frame, least (00_scope R6). -/
abbrev Config.nopsMin : Nat := 1

/-- Number of operations of the mission frame, greatest (00_scope R6). -/
abbrev Config.nopsMax : Nat := 3

/-- Greatest work code (00_scope R6); the least is 0. -/
abbrev Config.workMax : Nat := 2

/-- Least station (00_scope R6); the greatest, 255, holds of every byte. -/
abbrev Config.stationMin : Nat := 1

/-- Start register of the mission frame (00_scope R6, 90_conflicts C2). -/
abbrev Config.missionStart : U16 := 0x0013#16

/-- Coil and discrete-input base address, 271 (00_scope R6). -/
abbrev Config.bitBase : U16 := 0x010F#16

/-- The coil value ON of the launch frame (30_encoding R57). -/
abbrev Config.coilOn : U16 := 0xFF00#16

/-- Discrete-input count of the TOR read, 17 (00_scope R6). -/
abbrev Config.torCount : U16 := 0x0011#16

/-- TXBUF_SIZE, the longest request frame (00_scope R6). -/
abbrev Config.txbufSize : Nat := 17

/-- RXBUF_SIZE, the longest response accepted (00_scope R6). -/
abbrev Config.rxbufSize : Nat := 256

/-- FREE VALUE (log 4). The `draw()` of 10_state R23: the byte a buffer holds at host address `a` after the
platform reset numbered `epoch`, until something writes it. No body: no proof can know a value of it. -/
opaque Config.draw (epoch a : Nat) : Byte

/-- FREE VALUE (log 5). What a read of `TXBUF[i]` with `i >= TXLEN` returns (20_memory R45), between the BUILD
command numbered `builds` and the next one, where the cell holds `stored`. No body: a proof may assume no value of
it. A block whose read returns the stored byte is the case `unknownTx builds i stored = stored`. -/
opaque Config.unknownTx (builds i : Nat) (stored : Byte) : Byte

/-- FREE VALUE (log 11). The VALID of a VALIDATE that computes it from an RXBUF byte not written since reset, "any value in
{0, 1}" (93_implementation_defined U6, 20_memory R45). `draws` numbers such VALIDATEs and `seen` is what the cells hold. No
body: a proof may assume no value of it. A block that tests the cells is the case `unknownValid draws seen = validate seen`. -/
opaque Config.unknownValid (draws : Nat) (seen : List Byte) : Bool

end Sys2Proof
end

