-- ==== Sys2Proof/Syntax.lean ====
section
/-! DEFINITION. The instructions, one constructor per row of spec/opcode_table.json (30_encoding R50, R66), the names of
the host registers (20_memory R31, 30_encoding R64) and the encoded forms (30_encoding R51, R53). -/

namespace Sys2Proof

/-- The registers of the host register space by name (20_memory R31, 30_encoding R64). -/
inductive RegName where
  | cmd | status | crcLo | crcHi
  | din | fc | addr | opcnt | nops
  | work0 | station0 | work1 | station1 | work2 | station2
  | txlen | rxlenLo | rxlenHi
  /-- `TXBUF<i>`, i = 0..16 -/
  | txbuf (i : Fin 17)
  /-- `RXBUF<i>`, i = 0..255 -/
  | rxbuf (i : Byte)
deriving DecidableEq, Repr

/-- An instruction of the block (30_encoding R50): a command or a host transaction. -/
inductive Instr where
  /-- CRC_INIT, 40_crc R73 -/
  | crcInit
  /-- CRC_UPDATE, 40_crc R74 -/
  | crcUpdate
  /-- VALIDATE, 42_validator R91 -/
  | validate
  /-- BUILD_MISSION, 41_frame_encoder R83 -/
  | buildMission
  /-- BUILD_LAUNCH, 41_frame_encoder R84 -/
  | buildLaunch
  /-- BUILD_READ_TOR, 41_frame_encoder R85 -/
  | buildReadTor
  /-- WR(A, D), 43_host_access R100 -/
  | wr (a : Addr) (d : Byte)
  /-- RD(A, D), 43_host_access R101; D must be 0x00 (WellFormed) -/
  | rd (a : Addr) (d : Byte)
deriving DecidableEq, Repr

/-- The two encoded forms of 30_encoding R50: the decode key of a command (format CMD, R53) and the host transaction
word (format HT, R51). -/
inductive Encoded where
  | key (k : Key)
  | ht (w : HTWord)
deriving DecidableEq, Repr

end Sys2Proof
end

