-- ==== Sys2Proof/WellFormed.lean ====
section
/-! DEFINITION. Which instructions are well formed. The types bound every other operand; the one check of the spec is
the data field of a read transaction (30_encoding R51). -/

namespace Sys2Proof

/-- 30_encoding R51: the data field of an RD must be 0x00, "An RD word with `D != 0x00` is reserved". -/
def Instr.wellFormed : Instr → Bool
  | .crcInit => true
  | .crcUpdate => true
  | .validate => true
  | .buildMission => true
  | .buildLaunch => true
  | .buildReadTor => true
  | .wr _ _ => true
  | .rd _ d => d == 0#8

end Sys2Proof
end

