-- ==== Sys2Proof/Decode.lean ====
section
/-! DEFINITION. The decoder, total on every key and every transaction word, rejecting by name; the encoder; and the
register map of the host register space (30_encoding R51 to R55, 20_memory R31). -/

namespace Sys2Proof

/-- Why an encoded form is no instruction. -/
inductive Reject where
  /-- A command code other than 0x01, 0x02, 0x04, 0x08 (30_encoding R54). -/
  | illegalCode
  /-- Code 0x04 (BUILD) with an FC that is not 0x10, 0x05 or 0x02 (30_encoding R55). -/
  | unsupportedFc
  /-- An RD word whose data field is not 0x00 (30_encoding R51). -/
  | readDataNonzero
deriving DecidableEq, Repr

/-- One row of the key table of 30_encoding R53. -/
structure KeyRow where
  pattern : Key
  mask : Key
  instr : Instr
deriving DecidableEq, Repr

/-- A key belongs to a row when it has the row's pattern under the row's mask. -/
def KeyRow.fits (r : KeyRow) (k : Key) : Bool :=
  (k &&& r.mask) == r.pattern

/-- The table of 30_encoding R53, in its order. -/
def keyTable : List KeyRow :=
  [ ⟨0x0001#16, 0x00FF#16, .crcInit⟩,
    ⟨0x0002#16, 0x00FF#16, .crcUpdate⟩,
    ⟨0x0008#16, 0x00FF#16, .validate⟩,
    ⟨0x1004#16, 0xFFFF#16, .buildMission⟩,
    ⟨0x0504#16, 0xFFFF#16, .buildLaunch⟩,
    ⟨0x0204#16, 0xFFFF#16, .buildReadTor⟩ ]

/-- The function-code byte of a key, `key[15:8]` (30_encoding R53). -/
def keyFc (k : Key) : Byte :=
  k.extractLsb' 8 8

/-- The command code of a key, `key[7:0]` (30_encoding R53). -/
def keyCode (k : Key) : Byte :=
  k.extractLsb' 0 8

/-- `key = (FC << 8) | code` (30_encoding R53). -/
def makeKey (fc code : Byte) : Key :=
  fc ++ code

/-- 30_encoding R53: "The decoder matches the key against these rows in order, and the first match wins". A key that
fits no row is rejected by R55 where its code is BUILD and by R54 otherwise. -/
def decodeKey (k : Key) : Except Reject Instr :=
  match keyTable.find? (fun r => r.fits k) with
  | some r => .ok r.instr
  | none => if keyCode k = 0x04#8 then .error .unsupportedFc else .error .illegalCode

/-- Bit 17 of a transaction word: 1 for a write (30_encoding R51). -/
def htWrite (w : HTWord) : Bool :=
  w.getLsbD 17

/-- Bits 16:8 of a transaction word (30_encoding R51). -/
def htAddr (w : HTWord) : Addr :=
  w.extractLsb' 8 9

/-- Bits 7:0 of a transaction word (30_encoding R51). -/
def htData (w : HTWord) : Byte :=
  w.extractLsb' 0 8

/-- `W : A : D` (30_encoding R51). -/
def makeHt (write : Bool) (a : Addr) (d : Byte) : HTWord :=
  BitVec.ofBool write ++ a ++ d

/-- 30_encoding R51. -/
def decodeHt (w : HTWord) : Except Reject Instr :=
  if htWrite w then .ok (.wr (htAddr w) (htData w))
  else if htData w = 0#8 then .ok (.rd (htAddr w) (htData w))
  else .error .readDataNonzero

/-- The decoder, total on both encoded forms. -/
def decode : Encoded → Except Reject Instr
  | .key k => decodeKey k
  | .ht w => decodeHt w

/-- The encoder. `fc` is the FC register's value, the bits of a key that CRC_INIT, CRC_UPDATE and VALIDATE ignore
(30_encoding R53); a BUILD row fixes those bits itself, and a transaction word has none. -/
def encode (fc : Byte) : Instr → Encoded
  | .crcInit => .key (makeKey fc 0x01#8)
  | .crcUpdate => .key (makeKey fc 0x02#8)
  | .validate => .key (makeKey fc 0x08#8)
  | .buildMission => .key (makeKey 0x10#8 0x04#8)
  | .buildLaunch => .key (makeKey 0x05#8 0x04#8)
  | .buildReadTor => .key (makeKey 0x02#8 0x04#8)
  | .wr a d => .ht (makeHt true a d)
  | .rd a d => .ht (makeHt false a d)

/-- The instruction the decoder reads from an instruction whose bits are `w`. A row of format CMD has 16 bits, the
decode key; a row of format HT has 18 bits, 3 whole bytes. A transaction word has no bit above bit 17 ("No other length
or format exists", 30_encoding R51), so a number with one set is no word (log 15). -/
def decodeTableWord (nbits w : Nat) : Option Instr :=
  if nbits ≤ 16 then
    if w < 2 ^ 16 then (decode (.key (BitVec.ofNat 16 w))).toOption else none
  else
    if w < 2 ^ 18 then (decode (.ht (BitVec.ofNat 18 w))).toOption else none

/-- The register at an address, none for the unmapped ranges 0x012..0x01F and 0x031..0x0FF (20_memory R31, R38). -/
def regOf (a : Addr) : Option RegName :=
  match a.toNat with
  | 0x000 => some .cmd
  | 0x001 => some .status
  | 0x002 => some .crcLo
  | 0x003 => some .crcHi
  | 0x004 => some .din
  | 0x005 => some .fc
  | 0x006 => some .addr
  | 0x007 => some .opcnt
  | 0x008 => some .nops
  | 0x009 => some .work0
  | 0x00A => some .station0
  | 0x00B => some .work1
  | 0x00C => some .station1
  | 0x00D => some .work2
  | 0x00E => some .station2
  | 0x00F => some .txlen
  | 0x010 => some .rxlenLo
  | 0x011 => some .rxlenHi
  | n =>
    if h : 0x020 ≤ n ∧ n ≤ 0x030 then some (.txbuf ⟨n - 0x020, by omega⟩)
    else if 0x100 ≤ n then some (.rxbuf (BitVec.ofNat 8 (n - 0x100)))
    else none

/-- The address of a register (20_memory R31). -/
def addrOf : RegName → Addr
  | .cmd => 0x000#9
  | .status => 0x001#9
  | .crcLo => 0x002#9
  | .crcHi => 0x003#9
  | .din => 0x004#9
  | .fc => 0x005#9
  | .addr => 0x006#9
  | .opcnt => 0x007#9
  | .nops => 0x008#9
  | .work0 => 0x009#9
  | .station0 => 0x00A#9
  | .work1 => 0x00B#9
  | .station1 => 0x00C#9
  | .work2 => 0x00D#9
  | .station2 => 0x00E#9
  | .txlen => 0x00F#9
  | .rxlenLo => 0x010#9
  | .rxlenHi => 0x011#9
  | .txbuf i => BitVec.ofNat 9 (0x020 + i.val)
  | .rxbuf i => BitVec.ofNat 9 (0x100 + i.toNat)

end Sys2Proof
end

