-- ==== Sys2Proof/Machine/State.lean ====
section
/-! DEFINITION. The state of the machine as plain data (spec 10_state R10, R22), the outcomes' reasons, and the state
after reset (10_state R23). -/

namespace Sys2Proof.Machine

/-- The bytes of one frame buffer that something has written since reset, as (index, byte) pairs with the indices
strictly rising. An index not listed has no known value: it reads as the draw of `State.txByte` and `State.rxByte`. -/
abbrev Memory := List Host.Cell

/-- The three faults of 60_exceptions R110, each a sticky STATUS bit. -/
inductive FaultKind where
  | errIllegal
  | errFunc
  | errRange
deriving DecidableEq, Repr

/-- Why a transaction is refused (43_host_access R100, R101). The reason is not recorded, only REFUSED is. -/
inductive RefuseReason where
  | writeNotWritable
  | readDataNonzero
  | readNotReadable
deriving DecidableEq, Repr

/-- What the outside can do to the block between two transactions: one host transaction (30_encoding R51), or the
platform's reset (70_reset R130). -/
inductive HostEvent where
  | access (w : HTWord)
  | reset
deriving DecidableEq, Repr

/-- A fault that stops the machine. There is none: a fault of this block is a sticky STATUS bit and the machine goes on
(60_exceptions R110, R116, R117; log 7). -/
inductive Fault where
deriving DecidableEq, Repr

/-- A refusal that stops the machine. The refusal of 60_exceptions R114 is not one of these: it sets REFUSED and the
machine goes on (log 6). -/
inductive Refusal where
  /-- Raised by an arm of `exec` whose instruction has no meaning yet; no arm is in that case. Safe. -/
  | notModelled (mnemonic : String)
deriving DecidableEq, Repr

/-- The architectural state of 10_state R10, the mark of R22, the observation of 60_exceptions R128, and the model's own
`pending`, `resets`, `builds` and `validDraws`. -/
structure State where
  /-- CRC, R13 -/
  crc : U16
  /-- DIN, R12 -/
  din : Byte
  /-- FC, R12 -/
  fc : Byte
  /-- ADDR, R12 -/
  addr : Byte
  /-- OPCNT, R12 -/
  opcnt : Byte
  /-- NOPS, R12 -/
  nops : Byte
  /-- WORK[0], R12 -/
  work0 : Byte
  /-- STATION[0], R12 -/
  station0 : Byte
  /-- WORK[1], R12 -/
  work1 : Byte
  /-- STATION[1], R12 -/
  station1 : Byte
  /-- WORK[2], R12 -/
  work2 : Byte
  /-- STATION[2], R12 -/
  station2 : Byte
  /-- TXBUF, R14: the cells written since reset, by index 0..16 -/
  txbuf : Memory
  /-- TXLEN, R15 -/
  txlen : Byte
  /-- RXBUF, R16: the cells written since reset, by index 0..255 -/
  rxbuf : Memory
  /-- RXLEN, R17 -/
  rxlen : BitVec 9
  /-- VALID, R18 -/
  valid : Bool
  /-- ERR_ILLEGAL, R19 -/
  errIllegal : Bool
  /-- ERR_FUNC, R19 -/
  errFunc : Bool
  /-- ERR_RANGE, R19 -/
  errRange : Bool
  /-- REFUSED, R22, the spec's own mark of the model -/
  refused : Bool
  /-- The values RD transactions returned, oldest first (60_exceptions R128, log 9). -/
  reads : List Byte
  /-- MODEL's own: the host's transactions and the platform's resets still to run, next first (10_state R11, log 1). -/
  pending : List HostEvent
  /-- MODEL's own: how many platform resets there were, which selects fresh draws (log 4). -/
  resets : Nat
  /-- MODEL's own: how many BUILD commands there were, which selects fresh unknown TXBUF bytes (log 5). -/
  builds : Nat
  /-- MODEL's own: how many times VALIDATE drew an unknown VALID, which selects a fresh one (log 11). -/
  validDraws : Nat
deriving DecidableEq, Repr

/-- 10_state R23. The buffers list nothing, so each byte of theirs is a draw. -/
def State.reset : State where
  crc := Config.crcInit
  din := 0x00#8
  fc := 0x00#8
  addr := 0x00#8
  opcnt := 0x00#8
  nops := 0x00#8
  work0 := 0x00#8
  station0 := 0x00#8
  work1 := 0x00#8
  station1 := 0x00#8
  work2 := 0x00#8
  station2 := 0x00#8
  txbuf := []
  txlen := 0x00#8
  rxbuf := []
  rxlen := 0x000#9
  valid := false
  errIllegal := false
  errFunc := false
  errRange := false
  refused := false
  reads := []
  pending := []
  resets := 0
  builds := 0
  validDraws := 0

end Sys2Proof.Machine
end

