-- ==== Sys2Proof/Machine/Ops.lean ====
section
/-! DEFINITION. The operations the meanings share: the frame buffers, byte order, the CRC function (spec 40_crc R70 to
R72), raising a fault (60_exceptions R110), refusing a transaction (R114), returning a read value, and the platform's
reset (70_reset R130). -/

namespace Sys2Proof.Machine

/-- The byte written at an index, none where nothing was written since reset. -/
def Memory.read (m : Memory) (i : Nat) : Option Byte :=
  match m with
  | [] => none
  | (j, b) :: rest => if i = j then some b else Memory.read rest i

/-- Writing one byte keeps the indices strictly rising. -/
def Memory.write (m : Memory) (i : Nat) (b : Byte) : Memory :=
  match m with
  | [] => [(i, b)]
  | (j, c) :: rest =>
    if i < j then (i, b) :: (j, c) :: rest
    else if i = j then (i, b) :: rest
    else (j, c) :: Memory.write rest i b

/-- Writing a sequence at index `i` and on. -/
def Memory.writeAll (m : Memory) (i : Nat) (bs : List Byte) : Memory :=
  match bs with
  | [] => m
  | b :: rest => Memory.writeAll (Memory.write m i b) (i + 1) rest

/-- The canonical form below a size: indices strictly rising from at least `low`, all under `size`. -/
def Memory.wfFrom (size low : Nat) (m : Memory) : Bool :=
  match m with
  | [] => true
  | (j, _) :: rest => decide (low ≤ j) && decide (j < size) && Memory.wfFrom size (j + 1) rest

/-- The canonical form of a buffer of `size` bytes: indices strictly rising and under `size`. An unlisted index has no
value of its own, so no entry can equal it. -/
def Memory.wf (size : Nat) (m : Memory) : Bool :=
  Memory.wfFrom size 0 m

/-- Where TXBUF begins in the host register space (20_memory R31). -/
def txBase : Nat := 0x020

/-- Where RXBUF begins in the host register space (20_memory R31). -/
def rxBase : Nat := 0x100

/-- The byte `TXBUF[i]` holds: the byte last written there, or the draw of the last reset (10_state R14, R23). What a
HOST reads is `txRead`. -/
def State.txByte (s : State) (i : Nat) : Byte :=
  (s.txbuf.read i).getD (Config.draw s.resets (txBase + i))

/-- The byte `RXBUF[i]` holds: the byte last written there, or the draw of the last reset (10_state R16, R23). -/
def State.rxByte (s : State) (i : Nat) : Byte :=
  (s.rxbuf.read i).getD (Config.draw s.resets (rxBase + i))

/-- What a host read of `TXBUF[i]` returns: the frame's byte below TXLEN, an unknown byte at or past it
(20_memory R45). -/
def State.txRead (s : State) (i : Nat) : Byte :=
  if i < s.txlen.toNat then s.txByte i else Config.unknownTx s.builds i (s.txByte i)

/-- `TXBUF[0..TXLEN)`, the last request frame built (10_state R14, R15). -/
def State.txFrame (s : State) : List Byte :=
  (List.range s.txlen.toNat).map s.txByte

/-- `RXBUF[0..RXLEN)`, the received response frame (10_state R16, R17). -/
def State.rxFrame (s : State) : List Byte :=
  (List.range s.rxlen.toNat).map s.rxByte

/-- Something has written every byte of `RXBUF[0..RXLEN)` since reset, the host's duty of 60_exceptions R125 and
70_reset R135. -/
def State.rxWritten (s : State) : Bool :=
  (List.range s.rxlen.toNat).all (fun i => (s.rxbuf.read i).isSome)

/-- `v[7:0]`. -/
def lowByte (v : U16) : Byte :=
  v.extractLsb' 0 8

/-- `v[15:8]`. -/
def highByte (v : U16) : Byte :=
  v.extractLsb' 8 8

/-- A 16-bit payload field of a frame, big-endian (20_memory R33). -/
def bigEndian (v : U16) : List Byte :=
  [highByte v, lowByte v]

/-- The trailing CRC of a frame, little-endian (20_memory R33, 30_encoding R62). -/
def littleEndian (v : U16) : List Byte :=
  [lowByte v, highByte v]

/-- 40_crc R70: one bit iteration. -/
def crcBit (c : U16) : U16 :=
  if c.getLsbD 0 then (c >>> 1) ^^^ Config.crcPoly else c >>> 1

/-- `crc_bit` applied `n` times. -/
def crcBits : Nat → U16 → U16
  | 0, c => c
  | n + 1, c => crcBits n (crcBit c)

/-- 40_crc R71: one byte step. -/
def crcStep8 (c : U16) (b : Byte) : U16 :=
  crcBits 8 (c ^^^ b.setWidth 16)

/-- 40_crc R72: the CRC of a byte sequence. -/
def crc16 (s : List Byte) : U16 :=
  s.foldl crcStep8 Config.crcInit

/-- `raise Fault(kind)` of 00_scope R9: sets the sticky STATUS bit named by the kind, and nothing else
(60_exceptions R110, R117). This is all that taking an exception is on this block. -/
def State.raiseFault (s : State) (k : FaultKind) : State :=
  match k with
  | .errIllegal => { s with errIllegal := true }
  | .errFunc => { s with errFunc := true }
  | .errRange => { s with errRange := true }

/-- The fault bit of a kind (60_exceptions R110). -/
def State.faultBit (s : State) (k : FaultKind) : Bool :=
  match k with
  | .errIllegal => s.errIllegal
  | .errFunc => s.errFunc
  | .errRange => s.errRange

/-- The effect of a refusal: REFUSED is set and no hardware state changes (60_exceptions R114). -/
def State.markRefused (s : State) : State :=
  { s with refused := true }

/-- `refuse(reason)` of 00_scope R9. The reason is not recorded (10_state R22), and the machine goes on (log 6). -/
def refuse (_reason : RefuseReason) (s : State) : Host.Outcome State Fault Refusal :=
  .next s.markRefused

/-- A read returns a value to the host: it joins the run's observation and changes nothing else (20_memory R37,
60_exceptions R128). -/
def State.pushRead (s : State) (b : Byte) : State :=
  { s with reads := s.reads ++ [b] }

/-- The platform's reset (70_reset R130): every hardware element takes its value of 10_state R23, the buffers take fresh
draws, REFUSED stays. What is outside the block stays too: the host's further events and the values it has read. -/
def State.applyReset (s : State) : State :=
  { State.reset with
    refused := s.refused
    reads := s.reads
    pending := s.pending
    resets := s.resets + 1
    builds := s.builds
    validDraws := s.validDraws }

/-- The next event is taken off the queue (10_state R11: one access at a time, in program order). -/
def State.popEvent (s : State) : State :=
  { s with pending := s.pending.tail }

end Sys2Proof.Machine
end

