-- ==== Sys2Proof/Machine/Flags.lean ====
section
/-! DEFINITION. The STATUS register (spec 10_state R20, 43_host_access R104) and the predicates that decide the flags:
the encoder's range checks (41_frame_encoder R82) and the validator's test (42_validator R90). -/

namespace Sys2Proof.Machine

/-- STATUS as a host reads it: `0000 : ERR_RANGE : ERR_FUNC : ERR_ILLEGAL : VALID` (10_state R20, 43_host_access R101). -/
def State.statusByte (s : State) : Byte :=
  0#4 ++ BitVec.ofBool s.errRange ++ BitVec.ofBool s.errFunc ++ BitVec.ofBool s.errIllegal ++ BitVec.ofBool s.valid

/-- The three operation slots, (WORK[i], STATION[i]) for i = 0, 1, 2 (10_state R12). -/
def State.slots (s : State) : List (Byte × Byte) :=
  [(s.work0, s.station0), (s.work1, s.station1), (s.work2, s.station2)]

/-- The slots a mission frame carries, `i < NOPS` (41_frame_encoder R83). -/
def State.operations (s : State) : List (Byte × Byte) :=
  s.slots.take s.nops.toNat

/-- A byte lies in a closed range of naturals. -/
def inRange (low high : Nat) (b : Byte) : Bool :=
  decide (low ≤ b.toNat) && decide (b.toNat ≤ high)

/-- `addr_ok` of 41_frame_encoder R82. -/
def State.addrOk (s : State) : Bool :=
  inRange Config.addrMin Config.addrMax s.addr

/-- One operation in range: `WORK[i] <= 2 and 1 <= STATION[i]` (41_frame_encoder R82). -/
def operationOk (op : Byte × Byte) : Bool :=
  decide (op.1.toNat ≤ Config.workMax) && decide (Config.stationMin ≤ op.2.toNat)

/-- `mission_ok` of 41_frame_encoder R82. Slots at or past NOPS are not read. -/
def State.missionOk (s : State) : Bool :=
  s.addrOk && inRange Config.opcntMin Config.opcntMax s.opcnt && inRange Config.nopsMin Config.nopsMax s.nops
    && s.operations.all operationOk

/-- `validate` of 42_validator R90: at least 3 bytes, and the last two are the CRC of the rest, low byte first. -/
def validate (r : List Byte) : Bool :=
  if r.length < 3 then false
  else
    let received : U16 :=
      ((r.getD (r.length - 1) 0#8).setWidth 16 <<< 8) ||| (r.getD (r.length - 2) 0#8).setWidth 16
    crc16 (r.take (r.length - 2)) == received

end Sys2Proof.Machine
end

