-- ==== Sys2Proof/Machine/Operands.lean ====
section
/-! DEFINITION. Reading and writing a host register by name (spec 20_memory R31, R32; 43_host_access R100, R101, R103,
R104). Every operand of a transaction is one byte at one address (20_memory R35). -/

namespace Sys2Proof.Machine

/-- What a read of a register returns, none for CMD, which is write-only (43_host_access R101). -/
def State.loadReg (s : State) (r : RegName) : Option Byte :=
  match r with
  | .cmd => none
  | .status => some s.statusByte
  | .crcLo => some (lowByte s.crc)
  | .crcHi => some (highByte s.crc)
  | .din => some s.din
  | .fc => some s.fc
  | .addr => some s.addr
  | .opcnt => some s.opcnt
  | .nops => some s.nops
  | .work0 => some s.work0
  | .station0 => some s.station0
  | .work1 => some s.work1
  | .station1 => some s.station1
  | .work2 => some s.work2
  | .station2 => some s.station2
  | .txlen => some s.txlen
  | .rxlenLo => some (s.rxlen.extractLsb' 0 8)
  | .rxlenHi => some (0#7 ++ s.rxlen.extractLsb' 8 1)
  | .txbuf i => some (s.txRead i.val)
  | .rxbuf i => some (s.rxByte i.toNat)

/-- The state after a byte is stored in a register, none for the registers a write may not reach: CMD, whose write runs
a command instead, and the read-only ones (43_host_access R100). A write of RXLEN_HI keeps D[0] alone (R103). -/
def State.storeReg (s : State) (r : RegName) (d : Byte) : Option State :=
  match r with
  | .cmd => none
  | .status => none
  | .crcLo => none
  | .crcHi => none
  | .din => some { s with din := d }
  | .fc => some { s with fc := d }
  | .addr => some { s with addr := d }
  | .opcnt => some { s with opcnt := d }
  | .nops => some { s with nops := d }
  | .work0 => some { s with work0 := d }
  | .station0 => some { s with station0 := d }
  | .work1 => some { s with work1 := d }
  | .station1 => some { s with station1 := d }
  | .work2 => some { s with work2 := d }
  | .station2 => some { s with station2 := d }
  | .txlen => none
  | .rxlenLo => some { s with rxlen := s.rxlen.extractLsb' 8 1 ++ d }
  | .rxlenHi => some { s with rxlen := d.extractLsb' 0 1 ++ s.rxlen.extractLsb' 0 8 }
  | .txbuf _ => none
  | .rxbuf i => some { s with rxbuf := s.rxbuf.write i.toNat d }

end Sys2Proof.Machine
end

