-- ==== Sys2Proof/Machine/Crc.lean ====
section
/-! DEFINITION. The CRC16 engine's commands (spec 40_crc R73, R74). -/

namespace Sys2Proof.Machine

/-- 40_crc R73: `CRC <- 0xFFFF`. -/
def execCrcInit (s : State) : Host.Outcome State Fault Refusal :=
  .next { s with crc := Config.crcInit }

/-- 40_crc R74: `CRC <- crc_step8(CRC, DIN)`. -/
def execCrcUpdate (s : State) : Host.Outcome State Fault Refusal :=
  .next { s with crc := crcStep8 s.crc s.din }

end Sys2Proof.Machine
end

