-- ==== Sys2Proof/Machine/Encoder.lean ====
section
/-! DEFINITION. The frame encoder (spec 41_frame_encoder R80 to R85, frame formats 30_encoding R56 to R58, R60 to R62). -/

namespace Sys2Proof.Machine

/-- 30_encoding R62: the payload and its CRC, low byte first. -/
def withCrc (p : List Byte) : List Byte :=
  p ++ littleEndian (crc16 p)

/-- 41_frame_encoder R81, `emit`: TXBUF[0..len) and TXLEN are written, the bytes past them keep their values, CRC is not
changed. A BUILD also moves on to fresh unknown bytes past TXLEN (log 5). -/
def State.emit (s : State) (p : List Byte) : State :=
  { s with
    txbuf := s.txbuf.writeAll 0 (withCrc p)
    txlen := BitVec.ofNat 8 (withCrc p).length
    builds := s.builds + 1 }

/-- A BUILD that faults: `TXLEN <- 0; raise Fault(kind)`, nothing else (41_frame_encoder R80, R82). -/
def State.failBuild (s : State) (k : FaultKind) : State :=
  State.raiseFault { s with txlen := 0x00#8, builds := s.builds + 1 } k

/-- A BUILD variant: its range check, then its frame (41_frame_encoder R82, R83, R84, R85). -/
def buildFrame (ok : Bool) (p : List Byte) (s : State) : Host.Outcome State Fault Refusal :=
  if ok then .next (s.emit p) else .next (s.failBuild .errRange)

/-- 30_encoding R60: `value = (work << 8) | station`. -/
def operationValue (op : Byte × Byte) : U16 :=
  (op.1.setWidth 16 <<< 8) ||| op.2.setWidth 16

/-- The payload of format RTU-0x10 (30_encoding R56, R61). The counts come from NOPS, the operation-count register from
OPCNT, and the byte count keeps the source's `(1 + n) * 2`. -/
def State.missionPayload (s : State) : List Byte :=
  [s.addr, 0x10#8] ++ bigEndian Config.missionStart ++ bigEndian (1#16 + s.nops.setWidth 16)
    ++ [(1#8 + s.nops) * 2#8] ++ bigEndian (s.opcnt.setWidth 16)
    ++ s.operations.flatMap (fun op => bigEndian (operationValue op))

/-- The payload of format RTU-0x05 (30_encoding R57). -/
def State.launchPayload (s : State) : List Byte :=
  [s.addr, 0x05#8] ++ bigEndian Config.bitBase ++ bigEndian Config.coilOn

/-- The payload of format RTU-0x02 (30_encoding R58). -/
def State.readTorPayload (s : State) : List Byte :=
  [s.addr, 0x02#8] ++ bigEndian Config.bitBase ++ bigEndian Config.torCount

/-- 41_frame_encoder R83. -/
def execBuildMission (s : State) : Host.Outcome State Fault Refusal :=
  buildFrame s.missionOk s.missionPayload s

/-- 41_frame_encoder R84. -/
def execBuildLaunch (s : State) : Host.Outcome State Fault Refusal :=
  buildFrame s.addrOk s.launchPayload s

/-- 41_frame_encoder R85. -/
def execBuildReadTor (s : State) : Host.Outcome State Fault Refusal :=
  buildFrame s.addrOk s.readTorPayload s

/-- 41_frame_encoder R80: BUILD dispatches on FC; any other FC is ERR_FUNC, before any range check. -/
def runBuild (s : State) : Host.Outcome State Fault Refusal :=
  if s.fc = 0x10#8 then execBuildMission s
  else if s.fc = 0x05#8 then execBuildLaunch s
  else if s.fc = 0x02#8 then execBuildReadTor s
  else .next (s.failBuild .errFunc)

end Sys2Proof.Machine
end

