-- ==== Sys2Proof/Machine/Validator.lean ====
section
/-! DEFINITION. The response validator's command (spec 42_validator R91). -/

namespace Sys2Proof.Machine

/-- VALIDATE computes VALID from known bytes alone: all it reads were written, or there are fewer than 3 and the test reads
none ("RXLEN = 0, 1 or 2 gives VALID = 0. The CRC is not computed", 42_validator R91; log 11). -/
def State.responseKnown (s : State) : Bool :=
  decide (s.rxlen.toNat < 3) || s.rxWritten

/-- 42_validator R91: the bound on RXLEN first, then VALID is the test of `RXBUF[0..RXLEN)`. Where that test would read a byte
not written since reset, VALID is a fresh free value (20_memory R45, 93_implementation_defined U6, log 11). -/
def execValidate (s : State) : Host.Outcome State Fault Refusal :=
  if Config.rxbufSize < s.rxlen.toNat then .next (State.raiseFault { s with valid := false } .errRange)
  else if s.responseKnown then .next { s with valid := validate s.rxFrame }
  else .next { s with valid := Config.unknownValid s.validDraws s.rxFrame, validDraws := s.validDraws + 1 }

end Sys2Proof.Machine
end

