-- ==== Sys2Proof/Machine/HostAccess.lean ====
section
/-! DEFINITION. The host transactions WR and RD, and issuing a command (spec 43_host_access R100 to R102). -/

namespace Sys2Proof.Machine

/-- 43_host_access R102, `run_command`. -/
def runCommand (code : Byte) (s : State) : Host.Outcome State Fault Refusal :=
  if code = 0x01#8 then execCrcInit s
  else if code = 0x02#8 then execCrcUpdate s
  else if code = 0x04#8 then runBuild s
  else if code = 0x08#8 then execValidate s
  else .next (s.raiseFault .errIllegal)

/-- 43_host_access R100: a write to CMD runs a command, one to a writable register stores the byte, any other is
refused. -/
def execWr (a : Addr) (d : Byte) (s : State) : Host.Outcome State Fault Refusal :=
  match regOf a with
  | none => refuse .writeNotWritable s
  | some .cmd => runCommand d s
  | some r =>
    match s.storeReg r d with
    | some t => .next t
    | none => refuse .writeNotWritable s

/-- 43_host_access R101: a read with a data field that is not zero is refused, then one of CMD or of an unmapped
address, and any other returns the register's byte. -/
def execRd (a : Addr) (d : Byte) (s : State) : Host.Outcome State Fault Refusal :=
  if d ≠ 0x00#8 then refuse .readDataNonzero s
  else
    match (regOf a).bind s.loadReg with
    | some b => .next (s.pushRead b)
    | none => refuse .readNotReadable s

end Sys2Proof.Machine
end

