-- ==== Sys2Proof/Machine/Dispatch.lean ====
section
/-! DEFINITION. One arm per instruction, each one direct call of its meaning. -/

namespace Sys2Proof.Machine

def exec (i : Instr) (s : State) : Host.Outcome State Fault Refusal :=
  match i with
  | .crcInit => Sys2Proof.Machine.execCrcInit s
  | .crcUpdate => Sys2Proof.Machine.execCrcUpdate s
  | .validate => Sys2Proof.Machine.execValidate s
  | .buildMission => Sys2Proof.Machine.execBuildMission s
  | .buildLaunch => Sys2Proof.Machine.execBuildLaunch s
  | .buildReadTor => Sys2Proof.Machine.execBuildReadTor s
  | .wr a d => Sys2Proof.Machine.execWr a d s
  | .rd a d => Sys2Proof.Machine.execRd a d s

end Sys2Proof.Machine
end

