-- ==== Sys2Proof/Machine/Fetch.lean ====
section
/-! DEFINITION. What surrounds a step: a transaction word the decoder rejects, and how a program is placed before the
machine (spec 10_state R11, 30_encoding R51, 60_exceptions R114). -/

namespace Sys2Proof.Machine

/-- A transaction word that decodes to no instruction is reserved and refused (30_encoding R51, 60_exceptions R114). The
decoder rejects a transaction word for its data field alone. -/
def refuseWord (_why : Reject) (s : State) : Host.Outcome State Fault Refusal :=
  refuse .readDataNonzero s

/-- The transaction that issues a command: `WR CMD, code` (30_encoding R50, R52). -/
def commandWord (code : Byte) : HTWord :=
  makeHt true (addrOf .cmd) code

/-- The host issues transactions, after those already pending (10_state R11). This is how a program comes to run
(log 1). -/
def State.issue (s : State) (ws : List HTWord) : State :=
  { s with pending := s.pending ++ ws.map .access }

/-- An event placed so that it is the next to run. -/
def State.withNextEvent (s : State) (e : HostEvent) : State :=
  { s with pending := e :: s.pending }

/-- The state whose next step runs the command of a decode key: FC holds the key's upper byte, and the next transaction
writes the key's lower byte to CMD (30_encoding R53, log 8). -/
def State.withFetchKey (s : State) (k : Key) : State :=
  State.withNextEvent { s with fc := keyFc k } (.access (commandWord (keyCode k)))

end Sys2Proof.Machine
end

