-- ==== Sys2Proof/Machine/Step.lean ====
section
/-! DEFINITION. One step: the next event of the host or the platform, run to completion (spec 10_state R11). -/

namespace Sys2Proof.Machine

/-- One step takes the next event off the queue and runs it whole (10_state R11, 20_memory R39). With none pending the
block waits and nothing changes (log 2). -/
def step (s : State) : Host.Outcome State Fault Refusal :=
  match s.pending with
  | [] => .next s
  | .reset :: _ => .next s.popEvent.applyReset
  | .access w :: _ =>
    match decode (.ht w) with
    | .ok i => exec i s.popEvent
    | .error why => refuseWord why s.popEvent

/-- `s` with the instruction of bits `w` placed so that the very next step runs it: a decode key for a row of format CMD
(16 bits), a transaction word for a row of format HT (log 8). Of a number past 18 bits, which is no transaction word, the
low 18 bits are placed. -/
def State.withFetchWord (s : State) (nbits w : Nat) : State :=
  if nbits ≤ 16 then s.withFetchKey (BitVec.ofNat 16 w)
  else s.withNextEvent (.access (BitVec.ofNat 18 w))

end Sys2Proof.Machine
end

