-- ==== Sys2Proof/Machine/HostProgram.lean ====
section
/-! DEFINITION. The host's program text as transaction words: the assembler of spec 30_encoding R64 and R65, and the
host's classification of a reply, 60_exceptions R124. The block reads none of this. -/

namespace Sys2Proof.Machine

/-- `WR <reg>, <imm8>` (30_encoding R64). -/
def Asm.wr (r : RegName) (d : Byte) : HTWord :=
  makeHt true (addrOf r) d

/-- `RD <reg>` (30_encoding R64). -/
def Asm.rd (r : RegName) : HTWord :=
  makeHt false (addrOf r) 0x00#8

/-- `WR @0xNNN, <imm8>` (30_encoding R64): any address, an unmapped one too. -/
def Asm.wrAt (a : Addr) (d : Byte) : HTWord :=
  makeHt true a d

/-- `RD @0xNNN` (30_encoding R64). -/
def Asm.rdAt (a : Addr) : HTWord :=
  makeHt false a 0x00#8

/-- The command codes of 30_encoding R52, by name. -/
inductive CommandName where
  | crcInit | crcUpdate | build | validate
deriving DecidableEq, Repr

/-- 30_encoding R52. -/
def commandCode : CommandName → Byte
  | .crcInit => 0x01#8
  | .crcUpdate => 0x02#8
  | .build => 0x04#8
  | .validate => 0x08#8

/-- `CMD <mnemonic>` (30_encoding R65). -/
def Asm.cmd (c : CommandName) : List HTWord :=
  [Asm.wr .cmd (commandCode c)]

/-- `BUILD <fc>` (30_encoding R65). -/
def Asm.build (fc : Byte) : List HTWord :=
  [Asm.wr .fc fc, Asm.wr .cmd (commandCode .build)]

/-- `CRCB b0, ..., bk-1` (30_encoding R65). -/
def Asm.crcb (bs : List Byte) : List HTWord :=
  bs.flatMap (fun b => [Asm.wr .din b, Asm.wr .cmd (commandCode .crcUpdate)])

/-- `SETOP i, w, s` (30_encoding R65). -/
def Asm.setop (i : Fin 3) (w st : Byte) : List HTWord :=
  match i with
  | 0 => [Asm.wr .work0 w, Asm.wr .station0 st]
  | 1 => [Asm.wr .work1 w, Asm.wr .station1 st]
  | 2 => [Asm.wr .work2 w, Asm.wr .station2 st]

/-- The RXBUF writes of `LOADRX`, from index `j` on. -/
def Asm.loadBytes : Nat → List Byte → List HTWord
  | _, [] => []
  | j, b :: rest => Asm.wr (.rxbuf (BitVec.ofNat 8 j)) b :: Asm.loadBytes (j + 1) rest

/-- `LOADRX b0, ..., bk-1` (30_encoding R65), for k up to 256. -/
def Asm.loadrx (bs : List Byte) : List HTWord :=
  let k : BitVec 9 := BitVec.ofNat 9 bs.length
  Asm.loadBytes 0 bs ++ [Asm.wr .rxlenLo (k.extractLsb' 0 8), Asm.wr .rxlenHi (0#7 ++ k.extractLsb' 8 1)]

/-- `RDTX` (30_encoding R65): TXLEN, then each byte below the TXLEN read, at most the 17 there are. -/
def Asm.rdtx (txlen : Byte) : List HTWord :=
  Asm.rd .txlen :: ((List.finRange 17).filter (fun i => i.val < txlen.toNat)).map (fun i => Asm.rd (.txbuf i))

/-- The first half of the host's transaction (60_exceptions R123): operand writes, then BUILD. -/
def Asm.sendPhase (operandWrites : List HTWord) (fc : Byte) : List HTWord :=
  operandWrites ++ Asm.build fc

/-- The second half of the host's transaction on a reply that is not empty (60_exceptions R123). -/
def Asm.checkPhase (r : List Byte) : List HTWord :=
  Asm.loadrx r ++ Asm.cmd .validate ++ [Asm.rd .status]

/-- The host's line parity (60_exceptions R123, 93_implementation_defined U8). -/
inductive Parity where
  | none | odd
deriving DecidableEq, Repr

/-- The host's named parameters (60_exceptions R123). The block never reads them. -/
structure HostParams where
  timeoutSeconds : Nat
  baud : Nat
  dataBits : Nat
  parity : Parity
  stopBits : Nat
deriving DecidableEq, Repr

/-- The values the source gives the host's parameters (60_exceptions R123); the parity is the host's choice. -/
def hostParams (parity : Parity) : HostParams where
  timeoutSeconds := 1
  baud := 9600
  dataBits := 8
  parity := parity
  stopBits := 1

/-- The host's three outcomes of a transaction (60_exceptions R124). -/
inductive ReplyClass where
  | noResponse | crcValid | crcInvalid
deriving DecidableEq, Repr

/-- 60_exceptions R124, `classify`, the host's side of a reply. -/
def classify (r : List Byte) : ReplyClass :=
  if r.length = 0 then .noResponse
  else if validate r then .crcValid
  else .crcInvalid

end Sys2Proof.Machine
end

