-- ==== Sys2Proof/Safety.lean ====
section
/-! DEFINITION. What claims speak of: the observation and the good runs of spec 60_exceptions R128, the no-fault premise of
R116, and the invariants of the state. -/

namespace Sys2Proof.Machine

/-- What the end of a run shows (60_exceptions R128): the elements of 10_state R10 and the values read. TXBUF is shown
below TXLEN alone ("THIS DEFINITION DOES NOT SAY ... what TXBUF holds at or beyond TXLEN"). -/
structure Observation where
  crc : U16
  operands : List Byte
  txlen : Byte
  frame : List Byte
  rxlen : BitVec 9
  response : List Byte
  status : Byte
  refused : Bool
  reads : List Byte
deriving DecidableEq, Repr

/-- The eleven operand registers in the order of 10_state R12. -/
def State.operandBytes (s : State) : List Byte :=
  [s.din, s.fc, s.addr, s.opcnt, s.nops, s.work0, s.station0, s.work1, s.station1, s.work2, s.station2]

/-- The observation of a state. `RXBUF` is shown whole. -/
def State.observe (s : State) : Observation where
  crc := s.crc
  operands := s.operandBytes
  txlen := s.txlen
  frame := s.txFrame
  rxlen := s.rxlen
  response := (List.range Config.rxbufSize).map s.rxByte
  status := s.statusByte
  refused := s.refused
  reads := s.reads

/-- 60_exceptions R128: "A run is good when REFUSED is false and the fault bits the claim names are 0". -/
def State.good (named : List FaultKind) (s : State) : Bool :=
  !s.refused && named.all (fun k => !s.faultBit k)

/-- The no-fault premise of 60_exceptions R116. -/
def State.noFault (s : State) : Bool :=
  s.good [.errIllegal, .errFunc, .errRange]

/-- The lengths TXLEN can have (10_state R10, R15). -/
def txLengths : List Nat := [0, 8, 13, 15, 17]

/-- The invariant of the state: both buffers in canonical form, TXLEN one of the five lengths of 10_state R10, and the
frame below TXLEN written. -/
def State.inv (s : State) : Bool :=
  Memory.wf Config.txbufSize s.txbuf && Memory.wf Config.rxbufSize s.rxbuf
    && decide (s.txlen.toNat ∈ txLengths)
    && (List.range s.txlen.toNat).all (fun i => (s.txbuf.read i).isSome)

/-- The frame invariant: TXBUF holds no frame, or one that the validator accepts (10_state R15, 41_frame_encoder R86). -/
def State.frameInv (s : State) : Bool :=
  s.inv && (decide (s.txlen = 0#8) || validate s.txFrame)

/-- An event that is not the platform's reset. -/
def HostEvent.isAccess : HostEvent → Bool
  | .access _ => true
  | .reset => false

end Sys2Proof.Machine
end

