-- ==== Sys2Proof/Certificates/Slice0/Obligations.lean ====
section
/-! DEFINITION. The statements for the provers, in the order of OBLIGATIONS.json. -/

open Sys2Proof Sys2Proof.Machine

/-! Predicates the statements share, written from the spec's own words. -/

/-- `addr_ok` of 41_frame_encoder R82 in numbers. -/
abbrev Sys2Proof.Claims.AddrInRange (s : State) : Prop :=
  1 ≤ s.addr.toNat ∧ s.addr.toNat ≤ 4

/-- `mission_ok` of 41_frame_encoder R82 in numbers, slot by slot. -/
abbrev Sys2Proof.Claims.MissionInRange (s : State) : Prop :=
  Claims.AddrInRange s ∧ (1 ≤ s.opcnt.toNat ∧ s.opcnt.toNat ≤ 3) ∧ (1 ≤ s.nops.toNat ∧ s.nops.toNat ≤ 3) ∧
    (0 < s.nops.toNat → s.work0.toNat ≤ 2 ∧ 1 ≤ s.station0.toNat) ∧
    (1 < s.nops.toNat → s.work1.toNat ≤ 2 ∧ 1 ≤ s.station1.toNat) ∧
    (2 < s.nops.toNat → s.work2.toNat ≤ 2 ∧ 1 ≤ s.station2.toNat)

/-- The bytes a host reads at TXBUF0, TXBUF1, ... below TXLEN. -/
def Sys2Proof.Claims.frameRead (t : State) : List Byte :=
  (List.range t.txlen.toNat).map t.txRead

/-- `[c[7:0], c[15:8]]` of the CRC of a payload, in numbers (30_encoding R62). -/
def Sys2Proof.Claims.crcBytes (p : List Byte) : List Byte :=
  [BitVec.ofNat 8 ((crc16 p).toNat % 256), BitVec.ofNat 8 ((crc16 p).toNat / 256)]

/-- BUILD wrote the frame of payload `p` and changed nothing else: TXLEN is its length, a host reads it, TXBUF bytes past
it are the old ones, and every other element is the old one. The count of BUILDs is the model's own (log 5). -/
def Sys2Proof.Claims.WroteFrame (s t : State) (p : List Byte) : Prop :=
  t.txlen.toNat = p.length + 2 ∧ Claims.frameRead t = p ++ Claims.crcBytes p ∧
    (∀ i, p.length + 2 ≤ i → t.txByte i = s.txByte i) ∧
    t = { s with txbuf := t.txbuf, txlen := t.txlen, builds := s.builds + 1 }

/-- VALIDATE computes VALID from known bytes: RXLEN is below 3, where it reads none (42_validator R91), or something has
written every RXBUF byte below RXLEN since reset (20_memory R45). The first case beside the second is log 11's reading. -/
abbrev Sys2Proof.Claims.ResponseKnown (s : State) : Prop :=
  s.rxlen.toNat < 3 ∨ ∀ i, i < s.rxlen.toNat → (s.rxbuf.read i).isSome = true

/-- The bytes a mission frame carries for its operations (30_encoding R56, R60). -/
def Sys2Proof.Claims.operationBytes (s : State) : List Byte :=
  (if 0 < s.nops.toNat then [s.work0, s.station0] else []) ++ (if 1 < s.nops.toNat then [s.work1, s.station1] else []) ++
    (if 2 < s.nops.toNat then [s.work2, s.station2] else [])

/-- The next event of a state. -/
def Sys2Proof.Claims.nextEvent (s : State) : Option HostEvent :=
  s.pending.head?

/-- The next event writes `code` to CMD. -/
def Sys2Proof.Claims.Issues (s : State) (code : Byte) : Prop :=
  Claims.nextEvent s = some (.access (makeHt true 0x000#9 code))

/-- An address the host may not write (60_exceptions R114). -/
abbrev Sys2Proof.Claims.NotWritable (a : Addr) : Prop :=
  a = 0x001#9 ∨ a = 0x002#9 ∨ a = 0x003#9 ∨ a = 0x00F#9 ∨ (0x012 ≤ a.toNat ∧ a.toNat ≤ 0x0FF)

/-- An address the host may not read (60_exceptions R114). -/
abbrev Sys2Proof.Claims.NotReadable (a : Addr) : Prop :=
  a = 0x000#9 ∨ (0x012 ≤ a.toNat ∧ a.toNat ≤ 0x01F) ∨ (0x031 ≤ a.toNat ∧ a.toNat ≤ 0x0FF)

/-- A register the map gives access RW (20_memory R31). -/
abbrev Sys2Proof.Claims.ReadWrite (r : RegName) : Prop :=
  r ≠ .cmd ∧ r ≠ .status ∧ r ≠ .crcLo ∧ r ≠ .crcHi ∧ r ≠ .txlen ∧ ∀ i, r ≠ .txbuf i

/-! ## Encodings -/

/-- 30_encoding R51, R53: every well-formed instruction, with every operand at every value and whatever the ignored FC
bits are, is what the decoder reads from its encoding. -/
def Obligations.DecodeOfEncodeIsTheInstruction : Prop :=
  ∀ (fc : Byte) (i : Instr), i.wellFormed = true → decode (encode fc i) = .ok i

/-- 30_encoding R51, R53: no bit of an accepted form is dropped; what decodes is well formed and encodes back to the same
bits, the FC bits of a key being those of the key. -/
def Obligations.EncodeOfDecodeIsTheSameBits : Prop :=
  ∀ i : Instr, (∀ k, decode (.key k) = .ok i → i.wellFormed = true ∧ encode (keyFc k) i = .key k) ∧
    (∀ w fc, decode (.ht w) = .ok i → i.wellFormed = true ∧ encode fc i = .ht w)

/-- 30_encoding R53, R54, R55: what every key decodes to, by its two bytes. -/
def Obligations.KeyDecodesByCodeThenFunctionCode : Prop :=
  ∀ k : Key, decode (.key k) =
    if k.toNat % 256 = 0x01 then .ok .crcInit
    else if k.toNat % 256 = 0x02 then .ok .crcUpdate
    else if k.toNat % 256 = 0x08 then .ok .validate
    else if k.toNat % 256 = 0x04 then
      if k.toNat / 256 = 0x10 then .ok .buildMission
      else if k.toNat / 256 = 0x05 then .ok .buildLaunch
      else if k.toNat / 256 = 0x02 then .ok .buildReadTor
      else .error .unsupportedFc
    else .error .illegalCode

/-- 30_encoding R51: the fields of a transaction word in numbers, its two example words, and the reserved words, which a
step refuses. -/
def Obligations.TransactionWordFields : Prop :=
  (∀ w : HTWord, w.toNat / 2 ^ 17 = 1 →
      decode (.ht w) = .ok (.wr (BitVec.ofNat 9 (w.toNat / 2 ^ 8 % 2 ^ 9)) (BitVec.ofNat 8 (w.toNat % 2 ^ 8)))) ∧
    (∀ w : HTWord, w.toNat / 2 ^ 17 = 0 → w.toNat % 2 ^ 8 = 0 →
      decode (.ht w) = .ok (.rd (BitVec.ofNat 9 (w.toNat / 2 ^ 8 % 2 ^ 9)) 0x00#8)) ∧
    (∀ w : HTWord, w.toNat / 2 ^ 17 = 0 → w.toNat % 2 ^ 8 ≠ 0 →
      decode (.ht w) = .error .readDataNonzero ∧
        ∀ s rest, s.pending = .access w :: rest → step s = .next { s with pending := rest, refused := true }) ∧
    decode (.ht 0x20601#18) = .ok (.wr 0x006#9 0x01#8) ∧ decode (.ht 0x00100#18) = .ok (.rd 0x001#9 0x00#8)

/-- A sanity statement on words written out from the tables of 30_encoding R51 and R53. -/
def Obligations.TableWordsDecodeToTheirRows : Prop :=
  decode (.key 0b0000000000000001#16) = .ok .crcInit ∧ decode (.key 0b1010101100000001#16) = .ok .crcInit ∧
    decode (.key 0b1111111100000010#16) = .ok .crcUpdate ∧ decode (.key 0b0001000000001000#16) = .ok .validate ∧
    decode (.key 0b0001000000000100#16) = .ok .buildMission ∧ decode (.key 0b0000010100000100#16) = .ok .buildLaunch ∧
    decode (.key 0b0000001000000100#16) = .ok .buildReadTor ∧
    decode (.ht 0b110000000100000010#18) = .ok (.wr 0x101#9 0x02#8) ∧
    decode (.ht 0b000010000000000000#18) = .ok (.rd 0x020#9 0x00#8)

/-- 20_memory R31, R38: every register has the one address of the map, and the addresses without one are the two unmapped
ranges. -/
def Obligations.RegisterMapIsExact : Prop :=
  (∀ r, regOf (addrOf r) = some r) ∧ (∀ a r, regOf a = some r → addrOf r = a) ∧
    ∀ a : Addr, regOf a = none ↔ (0x012 ≤ a.toNat ∧ a.toNat ≤ 0x01F) ∨ (0x031 ≤ a.toNat ∧ a.toNat ≤ 0x0FF)

/-! ## The CRC16 engine -/

/-- 40_crc R73: CRC_INIT in full: its result and frame, its issue and key, and that after reset it changes nothing. -/
def Obligations.CrcInitSetsFFFFAndNothingElse : Prop :=
  (∀ s, exec .crcInit s = .next { s with crc := 0xFFFF#16 }) ∧
    (∀ s, exec (.wr 0x000#9 0x01#8) s = .next { s with crc := 0xFFFF#16 }) ∧
    (∀ fc, decode (.key (makeKey fc 0x01#8)) = .ok .crcInit) ∧ exec .crcInit State.reset = .next State.reset

/-- 40_crc R74: CRC_UPDATE in full: its result and frame, its issue and key, and its corner cases. -/
def Obligations.CrcUpdateFoldsDinAndNothingElse : Prop :=
  (∀ s, exec .crcUpdate s = .next { s with crc := crcStep8 s.crc s.din }) ∧
    (∀ s, exec (.wr 0x000#9 0x02#8) s = .next { s with crc := crcStep8 s.crc s.din }) ∧
    (∀ fc, decode (.key (makeKey fc 0x02#8)) = .ok .crcUpdate) ∧
    crcStep8 0xFFFF#16 0x00#8 = 0x40BF#16 ∧ crcStep8 0x0000#16 0x00#8 = 0x0000#16 ∧
    crcStep8 0xFFFF#16 0x01#8 = 0x807E#16

/-- 40_crc R70: one bit iteration in numbers. -/
def Obligations.CrcBitShiftsAndXorsThePolynomial : Prop :=
  ∀ c : U16, (c.toNat % 2 = 1 → (crcBit c).toNat = (c.toNat / 2) ^^^ 0xA001) ∧
    (c.toNat % 2 = 0 → (crcBit c).toNat = c.toNat / 2)

/-- 40_crc R71: one byte step, the byte into bits 7:0 and then eight bit iterations, with the rule's worked example. -/
def Obligations.CrcByteStepIsEightBitIterations : Prop :=
  (∀ c b, crcStep8 c b =
      crcBit (crcBit (crcBit (crcBit (crcBit (crcBit (crcBit (crcBit (c ^^^ (0#8 ++ b)))))))))) ∧
    crcStep8 0xFFFF#16 0x01#8 = 0x807E#16 ∧
    [1, 2, 3, 4, 5, 6, 7, 8].map (fun n => crcBits n (0xFFFF#16 ^^^ 0x0001#16)) =
      [0x7FFF#16, 0x9FFE#16, 0x4FFF#16, 0x87FE#16, 0x43FF#16, 0x81FE#16, 0x40FF#16, 0x807E#16]

/-- 40_crc R72, R75: the accumulator starts at 0xFFFF, each byte is folded in order, and the result is the final
accumulator. -/
def Obligations.CrcOfASequenceFoldsItsBytesInOrder : Prop :=
  crc16 [] = 0xFFFF#16 ∧ ∀ (s : List Byte) (b : Byte), crc16 (s ++ [b]) = crcStep8 (crc16 s) b

/-- 40_crc R76: CRC_INIT and then CRCB of any bytes leave their CRC in the CRC register, and touch nothing but DIN. -/
def Obligations.StreamedCrcEqualsTheSequenceCrc : Prop :=
  (∀ (s : State) (bs : List Byte) (rest : List HostEvent),
      s.pending = (Asm.cmd .crcInit ++ Asm.crcb bs).map .access ++ rest →
        Host.Core.run Sys2Proof.core (1 + 2 * bs.length) s =
          .next { s with crc := crc16 bs, din := bs.getLast?.getD s.din, pending := rest }) ∧
    ∀ s t : List Byte, crc16 (s ++ t) = t.foldl crcStep8 (crc16 s)

/-- 40_crc R77: a sequence followed by its own little-endian CRC has CRC zero, and zero is what the validator's test
amounts to. -/
def Obligations.CrcResidueOfAFrameIsZero : Prop :=
  (∀ p : List Byte, crc16 (p ++ Claims.crcBytes p) = 0x0000#16) ∧
    ∀ r : List Byte, 3 ≤ r.length → (validate r = true ↔ crc16 r = 0x0000#16)

/-- 40_crc R78: flipping any one bit of any byte of an accepted sequence makes the validator answer false, at every
length. -/
def Obligations.SingleBitErrorsAreDetected : Prop :=
  ∀ (r : List Byte) (j k : Nat), validate r = true → j < r.length → k < 8 →
    validate (r.modify j (fun b => b ^^^ (1#8 <<< k))) = false

/-! ## The frame encoder -/

/-- 41_frame_encoder R83, 30_encoding R56: BUILD_MISSION in full, in range and out of range. That `builds` moves on is the
model's choice (log 5). -/
def Obligations.BuildMissionWritesTheMissionFrame : Prop :=
  (∀ s, Claims.MissionInRange s →
      ∃ t, exec .buildMission s = .next t ∧ t.txlen.toNat = 11 + 2 * s.nops.toNat ∧
        Claims.WroteFrame s t ([s.addr, 0x10#8, 0x00#8, 0x13#8, 0x00#8, BitVec.ofNat 8 (1 + s.nops.toNat),
          BitVec.ofNat 8 ((1 + s.nops.toNat) * 2), 0x00#8, s.opcnt] ++ Claims.operationBytes s)) ∧
    (∀ s, ¬ Claims.MissionInRange s →
      exec .buildMission s = .next { s with txlen := 0x00#8, errRange := true, builds := s.builds + 1 }) ∧
    decode (.key 0x1004#16) = .ok .buildMission

/-- 41_frame_encoder R84, 30_encoding R57: BUILD_LAUNCH in full, in range and out of range. That `builds` moves on is the
model's choice (log 5). -/
def Obligations.BuildLaunchWritesTheLaunchFrame : Prop :=
  (∀ s, Claims.AddrInRange s →
      ∃ t, exec .buildLaunch s = .next t ∧ t.txlen = 8#8 ∧
        Claims.WroteFrame s t [s.addr, 0x05#8, 0x01#8, 0x0F#8, 0xFF#8, 0x00#8]) ∧
    (∀ s, ¬ Claims.AddrInRange s →
      exec .buildLaunch s = .next { s with txlen := 0x00#8, errRange := true, builds := s.builds + 1 }) ∧
    decode (.key 0x0504#16) = .ok .buildLaunch

/-- 41_frame_encoder R85, 30_encoding R58: BUILD_READ_TOR in full, in range and out of range. That `builds` moves on is the
model's choice (log 5). -/
def Obligations.BuildReadTorWritesTheReadFrame : Prop :=
  (∀ s, Claims.AddrInRange s →
      ∃ t, exec .buildReadTor s = .next t ∧ t.txlen = 8#8 ∧
        Claims.WroteFrame s t [s.addr, 0x02#8, 0x01#8, 0x0F#8, 0x00#8, 0x11#8]) ∧
    (∀ s, ¬ Claims.AddrInRange s →
      exec .buildReadTor s = .next { s with txlen := 0x00#8, errRange := true, builds := s.builds + 1 }) ∧
    decode (.key 0x0204#16) = .ok .buildReadTor

/-- 41_frame_encoder R80, 60_exceptions R112: BUILD runs the variant of FC, and raises ERR_FUNC, before any range check,
where FC has none. That `builds` moves on is the model's choice (log 5). -/
def Obligations.BuildDispatchesOnTheFunctionCode : Prop :=
  (∀ s, s.fc = 0x10#8 → exec (.wr 0x000#9 0x04#8) s = exec .buildMission s) ∧
    (∀ s, s.fc = 0x05#8 → exec (.wr 0x000#9 0x04#8) s = exec .buildLaunch s) ∧
    (∀ s, s.fc = 0x02#8 → exec (.wr 0x000#9 0x04#8) s = exec .buildReadTor s) ∧
    (∀ s, s.fc ≠ 0x10#8 → s.fc ≠ 0x05#8 → s.fc ≠ 0x02#8 →
      exec (.wr 0x000#9 0x04#8) s = .next { s with txlen := 0x00#8, errFunc := true, builds := s.builds + 1 }) ∧
    ∀ s t, exec (.wr 0x000#9 0x04#8) s = .next t → t.valid = s.valid

/-- 41_frame_encoder R86: the frame a host reads after any BUILD that raises no fault is one the validator accepts. -/
def Obligations.BuiltFramesValidate : Prop :=
  ∀ s t, exec (.wr 0x000#9 0x04#8) s = .next t → t.txlen ≠ 0x00#8 → validate (Claims.frameRead t) = true

/-- 41_frame_encoder R87: two BUILDs with equal operands write equal frames and lengths, whatever else the states hold. -/
def Obligations.BuildDependsOnItsOperandsAlone : Prop :=
  ∀ s u t v, s.fc = u.fc → s.addr = u.addr →
    (s.fc = 0x10#8 → s.opcnt = u.opcnt ∧ s.nops = u.nops ∧
      (0 < s.nops.toNat → s.work0 = u.work0 ∧ s.station0 = u.station0) ∧
      (1 < s.nops.toNat → s.work1 = u.work1 ∧ s.station1 = u.station1) ∧
      (2 < s.nops.toNat → s.work2 = u.work2 ∧ s.station2 = u.station2)) →
    exec (.wr 0x000#9 0x04#8) s = .next t → exec (.wr 0x000#9 0x04#8) u = .next v →
      t.txlen = v.txlen ∧ Claims.frameRead t = Claims.frameRead v

/-! ## The response validator -/

/-- 42_validator R90, R93: the test in numbers. -/
def Obligations.ValidateTestsLengthAndLittleEndianCrc : Prop :=
  (∀ r : List Byte, r.length < 3 → validate r = false) ∧
    ∀ (d : List Byte) (x y : Byte), d ≠ [] →
      (validate (d ++ [x, y]) = true ↔ (crc16 d).toNat = y.toNat * 256 + x.toNat)

/-- 42_validator R91, 20_memory R45: VALIDATE in full, its three cases with their frames, its issue and key. Where it would
read a byte nothing has written it completes too, and no value of VALID is claimed; that `validDraws` then moves on is the
model's choice, and that RXLEN below 3 counts as known its reading (log 11). -/
def Obligations.ValidateCommandSetsValidFromRxbuf : Prop :=
  (∀ s, s.rxlen.toNat ≤ 256 → Claims.ResponseKnown s →
      exec .validate s = .next { s with valid := validate ((List.range s.rxlen.toNat).map s.rxByte) }) ∧
    (∀ s, s.rxlen.toNat ≤ 256 → ¬ Claims.ResponseKnown s →
      ∃ b, exec .validate s = .next { s with valid := b, validDraws := s.validDraws + 1 }) ∧
    (∀ s, 256 < s.rxlen.toNat → exec .validate s = .next { s with valid := false, errRange := true }) ∧
    (∀ s, exec (.wr 0x000#9 0x08#8) s = exec .validate s) ∧ ∀ fc, decode (.key (makeKey fc 0x08#8)) = .ok .validate

/-- 42_validator R94: VALID after VALIDATE is the residue test of the receive buffer, where its bytes are known. Where one is
not, VALID is unknown (20_memory R45, log 11), which ValidateCommandSetsValidFromRxbuf states. -/
def Obligations.ValidEqualsZeroResidue : Prop :=
  ∀ s t, 3 ≤ s.rxlen.toNat → s.rxlen.toNat ≤ 256 → Claims.ResponseKnown s → exec .validate s = .next t →
    (t.valid = true ↔ crc16 ((List.range s.rxlen.toNat).map s.rxByte) = 0x0000#16)

/-- 20_memory R44: VALIDATE reads RXBUF below RXLEN alone. Nothing is claimed of a VALID computed from a byte that nothing
has written (20_memory R45), and that RXLEN below 3 counts as known is the model's reading (log 11). -/
def Obligations.ValidateReadsBelowRxlenAlone : Prop :=
  ∀ s u t v, s.rxlen = u.rxlen → (s.rxlen.toNat ≤ 256 → Claims.ResponseKnown s ∧ Claims.ResponseKnown u) →
    (∀ i, i < s.rxlen.toNat → s.rxByte i = u.rxByte i) →
    exec .validate s = .next t → exec .validate u = .next v → t.valid = v.valid

/-- 30_encoding R65, 42_validator R91: LOADRX of any reply the buffer holds, then VALIDATE, stores exactly that reply and
sets VALID to the validator's answer, whatever ran before. -/
def Obligations.LoadrxThenValidateJudgesTheReply : Prop :=
  ∀ (s : State) (r : List Byte) (rest : List HostEvent), r.length ≤ 256 →
    s.pending = (Asm.loadrx r ++ Asm.cmd .validate).map .access ++ rest →
      ∃ t, Host.Core.run Sys2Proof.core (r.length + 3) s = .next t ∧
        (List.range t.rxlen.toNat).map t.rxByte = r ∧ t.valid = validate r ∧
        (∀ i, r.length ≤ i → t.rxByte i = s.rxByte i) ∧
        t = { s with rxbuf := t.rxbuf, rxlen := t.rxlen, valid := t.valid, pending := rest }

/-- 42_validator R95, 60_exceptions R127: a frame that BUILD wrote, looped back into RXBUF, always validates. -/
def Obligations.LoopedBackFramesAlwaysValidate : Prop :=
  ∀ (s t : State) (rest : List HostEvent), exec (.wr 0x000#9 0x04#8) s = .next t → t.txlen ≠ 0x00#8 →
    t.pending = (Asm.loadrx (Claims.frameRead t) ++ Asm.cmd .validate).map .access ++ rest →
      ∃ u, Host.Core.run Sys2Proof.core (t.txlen.toNat + 3) t = .next u ∧ u.valid = true ∧ u.pending = rest ∧
        u.refused = s.refused ∧ ∀ k, u.faultBit k = s.faultBit k

/-- 60_exceptions R123, R124: on a reply that is not empty, the STATUS byte that the host's check phase reads carries in
bit 0 the class of the reply; an empty reply is the host's NO_RESPONSE. -/
def Obligations.CheckPhaseReportsTheReplyClass : Prop :=
  (∀ (s : State) (r : List Byte) (rest : List HostEvent), r ≠ [] → r.length ≤ 256 →
      s.pending = (Asm.checkPhase r).map .access ++ rest →
        ∃ t b, Host.Core.run Sys2Proof.core (r.length + 4) s = .next t ∧ t.reads = s.reads ++ [b] ∧ t.pending = rest ∧
          (b.getLsbD 0 = true ↔ classify r = .crcValid) ∧ (b.getLsbD 0 = false ↔ classify r = .crcInvalid)) ∧
    classify [] = .noResponse

/-- 30_encoding R65: RDTX reads TXLEN and then the frame, byte by byte, and changes nothing else. -/
def Obligations.RdtxReadsOutTheFrame : Prop :=
  ∀ (s : State) (rest : List HostEvent), s.txlen.toNat ≤ 17 → s.pending = (Asm.rdtx s.txlen).map .access ++ rest →
    Host.Core.run Sys2Proof.core (1 + s.txlen.toNat) s =
      .next { s with reads := s.reads ++ s.txlen :: Claims.frameRead s, pending := rest }

/-! ## Host access -/

/-- 43_host_access R100, R103: what a write does at every address, with its frame. A write of RXLEN_LO or RXLEN_HI keeps
the other part, and one of RXBUF keeps every other byte. -/
def Obligations.WriteActsByAddress : Prop :=
  (∀ s d, exec (.wr 0x000#9 d) s = runCommand d s) ∧
    (∀ s d, exec (.wr 0x004#9 d) s = .next { s with din := d }) ∧
    (∀ s d, exec (.wr 0x005#9 d) s = .next { s with fc := d }) ∧
    (∀ s d, exec (.wr 0x006#9 d) s = .next { s with addr := d }) ∧
    (∀ s d, exec (.wr 0x007#9 d) s = .next { s with opcnt := d }) ∧
    (∀ s d, exec (.wr 0x008#9 d) s = .next { s with nops := d }) ∧
    (∀ s d, exec (.wr 0x009#9 d) s = .next { s with work0 := d }) ∧
    (∀ s d, exec (.wr 0x00A#9 d) s = .next { s with station0 := d }) ∧
    (∀ s d, exec (.wr 0x00B#9 d) s = .next { s with work1 := d }) ∧
    (∀ s d, exec (.wr 0x00C#9 d) s = .next { s with station1 := d }) ∧
    (∀ s d, exec (.wr 0x00D#9 d) s = .next { s with work2 := d }) ∧
    (∀ s d, exec (.wr 0x00E#9 d) s = .next { s with station2 := d }) ∧
    (∀ s d, exec (.wr 0x010#9 d) s =
      .next { s with rxlen := BitVec.ofNat 9 (s.rxlen.toNat / 256 * 256 + d.toNat) }) ∧
    (∀ s d, exec (.wr 0x011#9 d) s =
      .next { s with rxlen := BitVec.ofNat 9 (d.toNat % 2 * 256 + s.rxlen.toNat % 256) }) ∧
    (∀ s d i, i < 256 → ∃ t, exec (.wr (BitVec.ofNat 9 (0x100 + i)) d) s = .next t ∧ t.rxByte i = d ∧
      (∀ j, j ≠ i → t.rxByte j = s.rxByte j) ∧ t = { s with rxbuf := t.rxbuf }) ∧
    ∀ s a d, Claims.NotWritable a → exec (.wr a d) s = .next { s with refused := true }

/-- 43_host_access R102, 60_exceptions R111: a write of CMD runs the command of its code, and ERR_ILLEGAL is all that the
252 other codes do. That `builds` moves on in the ERR_FUNC case is the model's choice (log 5). -/
def Obligations.CommandWriteRunsItsCode : Prop :=
  ∀ s d, exec (.wr 0x000#9 d) s =
    if d = 0x01#8 then exec .crcInit s
    else if d = 0x02#8 then exec .crcUpdate s
    else if d = 0x04#8 then
      if s.fc = 0x10#8 then exec .buildMission s
      else if s.fc = 0x05#8 then exec .buildLaunch s
      else if s.fc = 0x02#8 then exec .buildReadTor s
      else .next { s with txlen := 0x00#8, errFunc := true, builds := s.builds + 1 }
    else if d = 0x08#8 then exec .validate s
    else .next { s with errIllegal := true }

/-- 43_host_access R101, R104, 10_state R20: what a read returns at every address, and that it changes nothing else. No
value is claimed for a TXBUF byte at or past TXLEN (20_memory R45). -/
def Obligations.ReadReturnsByAddress : Prop :=
  (∀ s, exec (.rd 0x001#9 0x00#8) s = .next { s with reads := s.reads ++
      [BitVec.ofNat 8 (s.valid.toNat + 2 * s.errIllegal.toNat + 4 * s.errFunc.toNat + 8 * s.errRange.toNat)] }) ∧
    (∀ s, exec (.rd 0x002#9 0x00#8) s = .next { s with reads := s.reads ++ [BitVec.ofNat 8 (s.crc.toNat % 256)] }) ∧
    (∀ s, exec (.rd 0x003#9 0x00#8) s = .next { s with reads := s.reads ++ [BitVec.ofNat 8 (s.crc.toNat / 256)] }) ∧
    (∀ s, exec (.rd 0x004#9 0x00#8) s = .next { s with reads := s.reads ++ [s.din] }) ∧
    (∀ s, exec (.rd 0x005#9 0x00#8) s = .next { s with reads := s.reads ++ [s.fc] }) ∧
    (∀ s, exec (.rd 0x006#9 0x00#8) s = .next { s with reads := s.reads ++ [s.addr] }) ∧
    (∀ s, exec (.rd 0x007#9 0x00#8) s = .next { s with reads := s.reads ++ [s.opcnt] }) ∧
    (∀ s, exec (.rd 0x008#9 0x00#8) s = .next { s with reads := s.reads ++ [s.nops] }) ∧
    (∀ s, exec (.rd 0x009#9 0x00#8) s = .next { s with reads := s.reads ++ [s.work0] }) ∧
    (∀ s, exec (.rd 0x00A#9 0x00#8) s = .next { s with reads := s.reads ++ [s.station0] }) ∧
    (∀ s, exec (.rd 0x00B#9 0x00#8) s = .next { s with reads := s.reads ++ [s.work1] }) ∧
    (∀ s, exec (.rd 0x00C#9 0x00#8) s = .next { s with reads := s.reads ++ [s.station1] }) ∧
    (∀ s, exec (.rd 0x00D#9 0x00#8) s = .next { s with reads := s.reads ++ [s.work2] }) ∧
    (∀ s, exec (.rd 0x00E#9 0x00#8) s = .next { s with reads := s.reads ++ [s.station2] }) ∧
    (∀ s, exec (.rd 0x00F#9 0x00#8) s = .next { s with reads := s.reads ++ [s.txlen] }) ∧
    (∀ s, exec (.rd 0x010#9 0x00#8) s = .next { s with reads := s.reads ++ [BitVec.ofNat 8 (s.rxlen.toNat % 256)] }) ∧
    (∀ s, exec (.rd 0x011#9 0x00#8) s = .next { s with reads := s.reads ++ [BitVec.ofNat 8 (s.rxlen.toNat / 256)] }) ∧
    (∀ s i, i < 17 → i < s.txlen.toNat →
      exec (.rd (BitVec.ofNat 9 (0x020 + i)) 0x00#8) s = .next { s with reads := s.reads ++ [s.txByte i] }) ∧
    (∀ s i, i < 17 → s.txlen.toNat ≤ i →
      ∃ b, exec (.rd (BitVec.ofNat 9 (0x020 + i)) 0x00#8) s = .next { s with reads := s.reads ++ [b] }) ∧
    (∀ s i, i < 256 →
      exec (.rd (BitVec.ofNat 9 (0x100 + i)) 0x00#8) s = .next { s with reads := s.reads ++ [s.rxByte i] }) ∧
    (∀ s a, Claims.NotReadable a → exec (.rd a 0x00#8) s = .next { s with refused := true }) ∧
    ∀ s a d, d ≠ 0x00#8 → exec (.rd a d) s = .next { s with refused := true }

/-- 60_exceptions R114, 10_state R22: each access without meaning sets REFUSED and changes no hardware state, nothing else
sets it, and no step clears it. -/
def Obligations.RefusedIsSetByMeaninglessAccessesAndNeverCleared : Prop :=
  (∀ s w rest, s.pending = .access w :: rest →
      ((htWrite w = true ∧ Claims.NotWritable (htAddr w)) ∨ (htWrite w = false ∧ Claims.NotReadable (htAddr w)) ∨
        (htWrite w = false ∧ htData w ≠ 0x00#8)) →
      step s = .next { s with pending := rest, refused := true }) ∧
    (∀ s t, step s = .next t → s.refused = true → t.refused = true) ∧
    ∀ s t, step s = .next t → s.refused = false → t.refused = true →
      ∃ w, Claims.nextEvent s = some (.access w) ∧
        ((htWrite w = true ∧ Claims.NotWritable (htAddr w)) ∨ (htWrite w = false ∧ Claims.NotReadable (htAddr w)) ∨
          (htWrite w = false ∧ htData w ≠ 0x00#8))

/-- 20_memory R37: a read leaves the observation as it was but for the value it returns, and a second read of the same
address returns the same byte, a TXBUF byte at or past TXLEN too. -/
def Obligations.ReadsHaveNoSideEffectAndRepeat : Prop :=
  ∀ s a t u, exec (.rd a 0x00#8) s = .next t → exec (.rd a 0x00#8) t = .next u →
    t = { s with reads := t.reads, refused := t.refused } ∧
      ∃ l, t.reads = s.reads ++ l ∧ u.reads = t.reads ++ l

/-- 20_memory R39, 43_host_access R103: a byte written to a read-write register is what a read of it then returns
(RXLEN_HI keeps bit 0 alone), and every other register reads as before. -/
def Obligations.WrittenRegistersReadBackAndOthersStay : Prop :=
  ∀ s r d, Claims.ReadWrite r → ∃ t, exec (.wr (addrOf r) d) s = .next t ∧
    t.loadReg r = some (if r = .rxlenHi then BitVec.ofNat 8 (d.toNat % 2) else d) ∧
    ∀ q, q ≠ r → t.loadReg q = s.loadReg q

/-- 20_memory R32, R36: with no write between them, a read of CRC_LO and one of CRC_HI see one CRC value, low byte at the
lower address. -/
def Obligations.CrcReadsAsTwoBytesOfOneValue : Prop :=
  ∀ s, ∃ t u lo hi, exec (.rd 0x002#9 0x00#8) s = .next t ∧ exec (.rd 0x003#9 0x00#8) t = .next u ∧
    u = { s with reads := s.reads ++ [lo, hi] } ∧ hi.toNat * 256 + lo.toNat = s.crc.toNat

/-! ## Faults -/

/-- 60_exceptions R115: one transaction changes at most one fault bit, and a refused transaction changes none; an illegal
code ends the command before any other check, and an unsupported FC ends BUILD before any range check. -/
def Obligations.AtMostOneFaultPerTransaction : Prop :=
  (∀ i s t, exec i s = .next t →
      (∀ j k, t.faultBit j ≠ s.faultBit j → t.faultBit k ≠ s.faultBit k → j = k) ∧
        (t.refused ≠ s.refused → ∀ k, t.faultBit k = s.faultBit k)) ∧
    (∀ s d, d ≠ 0x01#8 → d ≠ 0x02#8 → d ≠ 0x04#8 → d ≠ 0x08#8 →
      ∃ t, exec (.wr 0x000#9 d) s = .next t ∧ t.errIllegal = true ∧ t.errFunc = s.errFunc ∧ t.errRange = s.errRange) ∧
    ∀ s, s.fc ≠ 0x10#8 → s.fc ≠ 0x05#8 → s.fc ≠ 0x02#8 → ¬ Claims.AddrInRange s →
      ∃ t, exec (.wr 0x000#9 0x04#8) s = .next t ∧ t.errFunc = true ∧ t.errRange = s.errRange

/-- 70_reset R131: only the reset clears a fault bit, it clears all three and VALID, and VALIDATE writes VALID: 0 past the
bound, and the validator's answer where the bytes are known (42_validator R91). No value is claimed where one is not
(20_memory R45), and that RXLEN below 3 counts as known is the model's reading (log 11). -/
def Obligations.OnlyResetClearsFaultBits : Prop :=
  (∀ s t k, step s = .next t → s.faultBit k = true → t.faultBit k = false → Claims.nextEvent s = some .reset) ∧
    (∀ s t, step s = .next t → Claims.nextEvent s = some .reset → (∀ k, t.faultBit k = false) ∧ t.valid = false) ∧
    ∀ s t, exec .validate s = .next t → (256 < s.rxlen.toNat → t.valid = false) ∧
      (s.rxlen.toNat ≤ 256 → Claims.ResponseKnown s → t.valid = validate ((List.range s.rxlen.toNat).map s.rxByte))

/-- 60_exceptions R116, R128: with no reset pending, a run whose end is good was good all along: the premise on the final
state covers every step of the run. -/
def Obligations.AGoodEndMeansAGoodRun : Prop :=
  ∀ (n m : Nat) (s t u : State) (named : List FaultKind), (∀ e ∈ s.pending, e ≠ HostEvent.reset) →
    Host.Core.run Sys2Proof.core n s = .next t → Host.Core.run Sys2Proof.core m t = .next u →
      State.good named u = true → State.good named t = true ∧ State.good named s = true

/-- 60_exceptions R116: a set fault bit does not block or change a later command: two states that differ in their fault
bits alone are led by every command to states that differ in their fault bits alone. -/
def Obligations.FaultBitsDoNotChangeCommands : Prop :=
  ∀ s t b1 b2 b3 d, exec (.wr 0x000#9 d) s = .next t →
    ∃ c1 c2 c3, exec (.wr 0x000#9 d) { s with errIllegal := b1, errFunc := b2, errRange := b3 } =
      .next { t with errIllegal := c1, errFunc := c2, errRange := c3 }

/-! ## Steps and reset -/

/-- 10_state R11, 30_encoding R51: a step runs the next transaction's decoded instruction, taken off the queue. -/
def Obligations.StepRunsTheDecodedTransaction : Prop :=
  ∀ s w rest i, s.pending = .access w :: rest → decode (.ht w) = .ok i →
    step s = exec i { s with pending := rest }

/-- 30_encoding R53, 43_host_access R102: where the next transaction writes CMD and the decode key of FC and the written
byte decodes to a command, the step is that command. -/
def Obligations.StepRunsTheCommandOfTheDecodeKey : Prop :=
  ∀ s code rest i, s.pending = .access (makeHt true 0x000#9 code) :: rest → decode (.key (makeKey s.fc code)) = .ok i →
    step s = exec i { s with pending := rest }

/-- The model's choice (log 2): with nothing pending a step changes nothing. -/
def Obligations.StepWaitsWhenNothingIsPending : Prop :=
  ∀ s, s.pending = [] → step s = .next s

/-- 93_implementation_defined: "No behaviour of this block is `stuck`: every transaction completes or is refused". Every
step and every instruction answers a next state. That an idle step answers one is log 2, and that a refused transaction
answers one is log 6. -/
def Obligations.EveryStepCompletes : Prop :=
  (∀ s, ∃ t, step s = .next t) ∧ ∀ i s, ∃ t, exec i s = .next t

/-- 70_reset R130: the platform's reset. Each buffer byte is the draw of that reset, a free value. The queue and the values
read are the host's and stay (log 3). -/
def Obligations.ResetEventSetsEveryElement : Prop :=
  ∀ s rest, s.pending = .reset :: rest → ∃ t, step s = .next t ∧
    t.crc = 0xFFFF#16 ∧ (∀ b ∈ t.operandBytes, b = 0x00#8) ∧ t.rxlen = 0#9 ∧ t.txlen = 0x00#8 ∧ t.valid = false ∧
    t.errIllegal = false ∧ t.errFunc = false ∧ t.errRange = false ∧ t.refused = s.refused ∧
    (∀ i, t.txByte i = Config.draw (s.resets + 1) (0x020 + i)) ∧
    (∀ i, t.rxByte i = Config.draw (s.resets + 1) (0x100 + i)) ∧
    t.pending = rest ∧ t.reads = s.reads

/-- 10_state R23: the state after reset, and the two faults the rule derives from it. -/
def Obligations.StateAfterReset : Prop :=
  State.reset.crc = 0xFFFF#16 ∧ (∀ b ∈ State.reset.operandBytes, b = 0x00#8) ∧ State.reset.txlen = 0x00#8 ∧
    State.reset.rxlen = 0#9 ∧ State.reset.valid = false ∧ (∀ k, State.reset.faultBit k = false) ∧
    State.reset.refused = false ∧ (∀ i, State.reset.txByte i = Config.draw State.reset.resets (0x020 + i)) ∧
    (∀ i, State.reset.rxByte i = Config.draw State.reset.resets (0x100 + i)) ∧
    (∃ t, exec (.wr 0x000#9 0x04#8) State.reset = .next t ∧ t.errFunc = true ∧ t.errRange = false) ∧
    ∀ fc, fc = 0x10#8 ∨ fc = 0x05#8 ∨ fc = 0x02#8 →
      ∃ t, exec (.wr 0x000#9 0x04#8) { State.reset with fc := fc } = .next t ∧ t.errRange = true ∧ t.errFunc = false

/-! ## Invariants -/

/-- 10_state R10, R14, R15: every step keeps both buffers in canonical form, TXLEN one of 0, 8, 13, 15, 17, and every byte
of the frame written. -/
def Obligations.StepKeepsTheStateInvariant : Prop :=
  ∀ s t, s.inv = true → step s = .next t → t.inv = true

/-- 10_state R15, 41_frame_encoder R86: every step keeps that TXBUF holds no frame or one the validator accepts. -/
def Obligations.StepKeepsTheFrameInvariant : Prop :=
  ∀ s t, s.frameInv = true → step s = .next t → t.frameInv = true

/-- Both invariants hold after reset. -/
def Obligations.ResetMeetsTheInvariants : Prop :=
  State.reset.inv = true ∧ State.reset.frameInv = true

/-! ## Which step may write what -/

/-- 10_state R13: the three things that write CRC, and what each writes. -/
def Obligations.OnlyCrcCommandsAndResetWriteCrc : Prop :=
  ∀ s t, step s = .next t → t.crc ≠ s.crc →
    (Claims.Issues s 0x01#8 ∧ t.crc = 0xFFFF#16) ∨ (Claims.Issues s 0x02#8 ∧ t.crc = crcStep8 s.crc s.din) ∨
      (Claims.nextEvent s = some .reset ∧ t.crc = 0xFFFF#16)

/-- 10_state R12: no command ever writes an operand register; a host write of its address or the reset does. -/
def Obligations.OnlyHostWritesAndResetWriteOperands : Prop :=
  ∀ s t, step s = .next t → t.operandBytes ≠ s.operandBytes →
    Claims.nextEvent s = some .reset ∨
      ∃ a d, Claims.nextEvent s = some (.access (makeHt true a d)) ∧ 0x004 ≤ a.toNat ∧ a.toNat ≤ 0x00E

/-- 10_state R14, R15: TXBUF and TXLEN change only by a BUILD or the reset. -/
def Obligations.OnlyBuildAndResetWriteTheFrame : Prop :=
  ∀ s t, step s = .next t → t.txlen ≠ s.txlen ∨ (∃ i, t.txByte i ≠ s.txByte i) →
    Claims.nextEvent s = some .reset ∨ Claims.Issues s 0x04#8

/-- 10_state R18: only VALIDATE and reset write VALID; reset sets 0, and VALIDATE sets 0 past the bound and the validator's
answer where the bytes are known (42_validator R91). No value is claimed where one is not (20_memory R45), and that RXLEN below 3
counts as known is the model's reading (log 11). -/
def Obligations.OnlyValidateAndResetWriteValid : Prop :=
  ∀ s t, step s = .next t → t.valid ≠ s.valid →
    (Claims.nextEvent s = some .reset ∧ t.valid = false) ∨
      (Claims.Issues s 0x08#8 ∧ (256 < s.rxlen.toNat → t.valid = false) ∧
        (s.rxlen.toNat ≤ 256 → Claims.ResponseKnown s →
          t.valid = validate ((List.range s.rxlen.toNat).map s.rxByte)))

/-- 10_state R16, R17: RXBUF and RXLEN change only by a host write of their addresses or the reset. -/
def Obligations.OnlyHostWritesAndResetWriteTheResponse : Prop :=
  ∀ s t, step s = .next t → t.rxlen ≠ s.rxlen ∨ (∃ i, t.rxByte i ≠ s.rxByte i) →
    Claims.nextEvent s = some .reset ∨
      ∃ a d, Claims.nextEvent s = some (.access (makeHt true a d)) ∧ (a = 0x010#9 ∨ a = 0x011#9 ∨ 0x100 ≤ a.toNat)
end

