-- ==== Sys2Proof/Laws/State.lean ====
section
/-! SUPPORT. One lemma per field per named update of the state, so that no proof unfolds an update. -/

namespace Sys2Proof.Machine

/-! REFUSED (60_exceptions R114) -/

@[simp] theorem State.markRefused_crc (s : State) : (s.markRefused).crc = s.crc := rfl
@[simp] theorem State.markRefused_din (s : State) : (s.markRefused).din = s.din := rfl
@[simp] theorem State.markRefused_fc (s : State) : (s.markRefused).fc = s.fc := rfl
@[simp] theorem State.markRefused_addr (s : State) : (s.markRefused).addr = s.addr := rfl
@[simp] theorem State.markRefused_opcnt (s : State) : (s.markRefused).opcnt = s.opcnt := rfl
@[simp] theorem State.markRefused_nops (s : State) : (s.markRefused).nops = s.nops := rfl
@[simp] theorem State.markRefused_work0 (s : State) : (s.markRefused).work0 = s.work0 := rfl
@[simp] theorem State.markRefused_station0 (s : State) : (s.markRefused).station0 = s.station0 := rfl
@[simp] theorem State.markRefused_work1 (s : State) : (s.markRefused).work1 = s.work1 := rfl
@[simp] theorem State.markRefused_station1 (s : State) : (s.markRefused).station1 = s.station1 := rfl
@[simp] theorem State.markRefused_work2 (s : State) : (s.markRefused).work2 = s.work2 := rfl
@[simp] theorem State.markRefused_station2 (s : State) : (s.markRefused).station2 = s.station2 := rfl
@[simp] theorem State.markRefused_txbuf (s : State) : (s.markRefused).txbuf = s.txbuf := rfl
@[simp] theorem State.markRefused_txlen (s : State) : (s.markRefused).txlen = s.txlen := rfl
@[simp] theorem State.markRefused_rxbuf (s : State) : (s.markRefused).rxbuf = s.rxbuf := rfl
@[simp] theorem State.markRefused_rxlen (s : State) : (s.markRefused).rxlen = s.rxlen := rfl
@[simp] theorem State.markRefused_valid (s : State) : (s.markRefused).valid = s.valid := rfl
@[simp] theorem State.markRefused_errIllegal (s : State) : (s.markRefused).errIllegal = s.errIllegal := rfl
@[simp] theorem State.markRefused_errFunc (s : State) : (s.markRefused).errFunc = s.errFunc := rfl
@[simp] theorem State.markRefused_errRange (s : State) : (s.markRefused).errRange = s.errRange := rfl
@[simp] theorem State.markRefused_refused (s : State) : (s.markRefused).refused = true := rfl
@[simp] theorem State.markRefused_reads (s : State) : (s.markRefused).reads = s.reads := rfl
@[simp] theorem State.markRefused_pending (s : State) : (s.markRefused).pending = s.pending := rfl
@[simp] theorem State.markRefused_resets (s : State) : (s.markRefused).resets = s.resets := rfl
@[simp] theorem State.markRefused_builds (s : State) : (s.markRefused).builds = s.builds := rfl
@[simp] theorem State.markRefused_validDraws (s : State) : (s.markRefused).validDraws = s.validDraws := rfl

/-! A value returned to the host (60_exceptions R128) -/

@[simp] theorem State.pushRead_crc (s : State) (b : Byte) : (s.pushRead b).crc = s.crc := rfl
@[simp] theorem State.pushRead_din (s : State) (b : Byte) : (s.pushRead b).din = s.din := rfl
@[simp] theorem State.pushRead_fc (s : State) (b : Byte) : (s.pushRead b).fc = s.fc := rfl
@[simp] theorem State.pushRead_addr (s : State) (b : Byte) : (s.pushRead b).addr = s.addr := rfl
@[simp] theorem State.pushRead_opcnt (s : State) (b : Byte) : (s.pushRead b).opcnt = s.opcnt := rfl
@[simp] theorem State.pushRead_nops (s : State) (b : Byte) : (s.pushRead b).nops = s.nops := rfl
@[simp] theorem State.pushRead_work0 (s : State) (b : Byte) : (s.pushRead b).work0 = s.work0 := rfl
@[simp] theorem State.pushRead_station0 (s : State) (b : Byte) : (s.pushRead b).station0 = s.station0 := rfl
@[simp] theorem State.pushRead_work1 (s : State) (b : Byte) : (s.pushRead b).work1 = s.work1 := rfl
@[simp] theorem State.pushRead_station1 (s : State) (b : Byte) : (s.pushRead b).station1 = s.station1 := rfl
@[simp] theorem State.pushRead_work2 (s : State) (b : Byte) : (s.pushRead b).work2 = s.work2 := rfl
@[simp] theorem State.pushRead_station2 (s : State) (b : Byte) : (s.pushRead b).station2 = s.station2 := rfl
@[simp] theorem State.pushRead_txbuf (s : State) (b : Byte) : (s.pushRead b).txbuf = s.txbuf := rfl
@[simp] theorem State.pushRead_txlen (s : State) (b : Byte) : (s.pushRead b).txlen = s.txlen := rfl
@[simp] theorem State.pushRead_rxbuf (s : State) (b : Byte) : (s.pushRead b).rxbuf = s.rxbuf := rfl
@[simp] theorem State.pushRead_rxlen (s : State) (b : Byte) : (s.pushRead b).rxlen = s.rxlen := rfl
@[simp] theorem State.pushRead_valid (s : State) (b : Byte) : (s.pushRead b).valid = s.valid := rfl
@[simp] theorem State.pushRead_errIllegal (s : State) (b : Byte) : (s.pushRead b).errIllegal = s.errIllegal := rfl
@[simp] theorem State.pushRead_errFunc (s : State) (b : Byte) : (s.pushRead b).errFunc = s.errFunc := rfl
@[simp] theorem State.pushRead_errRange (s : State) (b : Byte) : (s.pushRead b).errRange = s.errRange := rfl
@[simp] theorem State.pushRead_refused (s : State) (b : Byte) : (s.pushRead b).refused = s.refused := rfl
@[simp] theorem State.pushRead_reads (s : State) (b : Byte) : (s.pushRead b).reads = s.reads ++ [b] := rfl
@[simp] theorem State.pushRead_pending (s : State) (b : Byte) : (s.pushRead b).pending = s.pending := rfl
@[simp] theorem State.pushRead_resets (s : State) (b : Byte) : (s.pushRead b).resets = s.resets := rfl
@[simp] theorem State.pushRead_builds (s : State) (b : Byte) : (s.pushRead b).builds = s.builds := rfl
@[simp] theorem State.pushRead_validDraws (s : State) (b : Byte) : (s.pushRead b).validDraws = s.validDraws := rfl

/-! The queue of events -/

@[simp] theorem State.popEvent_crc (s : State) : (s.popEvent).crc = s.crc := rfl
@[simp] theorem State.popEvent_din (s : State) : (s.popEvent).din = s.din := rfl
@[simp] theorem State.popEvent_fc (s : State) : (s.popEvent).fc = s.fc := rfl
@[simp] theorem State.popEvent_addr (s : State) : (s.popEvent).addr = s.addr := rfl
@[simp] theorem State.popEvent_opcnt (s : State) : (s.popEvent).opcnt = s.opcnt := rfl
@[simp] theorem State.popEvent_nops (s : State) : (s.popEvent).nops = s.nops := rfl
@[simp] theorem State.popEvent_work0 (s : State) : (s.popEvent).work0 = s.work0 := rfl
@[simp] theorem State.popEvent_station0 (s : State) : (s.popEvent).station0 = s.station0 := rfl
@[simp] theorem State.popEvent_work1 (s : State) : (s.popEvent).work1 = s.work1 := rfl
@[simp] theorem State.popEvent_station1 (s : State) : (s.popEvent).station1 = s.station1 := rfl
@[simp] theorem State.popEvent_work2 (s : State) : (s.popEvent).work2 = s.work2 := rfl
@[simp] theorem State.popEvent_station2 (s : State) : (s.popEvent).station2 = s.station2 := rfl
@[simp] theorem State.popEvent_txbuf (s : State) : (s.popEvent).txbuf = s.txbuf := rfl
@[simp] theorem State.popEvent_txlen (s : State) : (s.popEvent).txlen = s.txlen := rfl
@[simp] theorem State.popEvent_rxbuf (s : State) : (s.popEvent).rxbuf = s.rxbuf := rfl
@[simp] theorem State.popEvent_rxlen (s : State) : (s.popEvent).rxlen = s.rxlen := rfl
@[simp] theorem State.popEvent_valid (s : State) : (s.popEvent).valid = s.valid := rfl
@[simp] theorem State.popEvent_errIllegal (s : State) : (s.popEvent).errIllegal = s.errIllegal := rfl
@[simp] theorem State.popEvent_errFunc (s : State) : (s.popEvent).errFunc = s.errFunc := rfl
@[simp] theorem State.popEvent_errRange (s : State) : (s.popEvent).errRange = s.errRange := rfl
@[simp] theorem State.popEvent_refused (s : State) : (s.popEvent).refused = s.refused := rfl
@[simp] theorem State.popEvent_reads (s : State) : (s.popEvent).reads = s.reads := rfl
@[simp] theorem State.popEvent_pending (s : State) : (s.popEvent).pending = s.pending.tail := rfl
@[simp] theorem State.popEvent_resets (s : State) : (s.popEvent).resets = s.resets := rfl
@[simp] theorem State.popEvent_builds (s : State) : (s.popEvent).builds = s.builds := rfl
@[simp] theorem State.popEvent_validDraws (s : State) : (s.popEvent).validDraws = s.validDraws := rfl

@[simp] theorem State.withNextEvent_crc (s : State) (e : HostEvent) : (s.withNextEvent e).crc = s.crc := rfl
@[simp] theorem State.withNextEvent_din (s : State) (e : HostEvent) : (s.withNextEvent e).din = s.din := rfl
@[simp] theorem State.withNextEvent_fc (s : State) (e : HostEvent) : (s.withNextEvent e).fc = s.fc := rfl
@[simp] theorem State.withNextEvent_addr (s : State) (e : HostEvent) : (s.withNextEvent e).addr = s.addr := rfl
@[simp] theorem State.withNextEvent_opcnt (s : State) (e : HostEvent) : (s.withNextEvent e).opcnt = s.opcnt := rfl
@[simp] theorem State.withNextEvent_nops (s : State) (e : HostEvent) : (s.withNextEvent e).nops = s.nops := rfl
@[simp] theorem State.withNextEvent_work0 (s : State) (e : HostEvent) : (s.withNextEvent e).work0 = s.work0 := rfl
@[simp] theorem State.withNextEvent_station0 (s : State) (e : HostEvent) : (s.withNextEvent e).station0 = s.station0 := rfl
@[simp] theorem State.withNextEvent_work1 (s : State) (e : HostEvent) : (s.withNextEvent e).work1 = s.work1 := rfl
@[simp] theorem State.withNextEvent_station1 (s : State) (e : HostEvent) : (s.withNextEvent e).station1 = s.station1 := rfl
@[simp] theorem State.withNextEvent_work2 (s : State) (e : HostEvent) : (s.withNextEvent e).work2 = s.work2 := rfl
@[simp] theorem State.withNextEvent_station2 (s : State) (e : HostEvent) : (s.withNextEvent e).station2 = s.station2 := rfl
@[simp] theorem State.withNextEvent_txbuf (s : State) (e : HostEvent) : (s.withNextEvent e).txbuf = s.txbuf := rfl
@[simp] theorem State.withNextEvent_txlen (s : State) (e : HostEvent) : (s.withNextEvent e).txlen = s.txlen := rfl
@[simp] theorem State.withNextEvent_rxbuf (s : State) (e : HostEvent) : (s.withNextEvent e).rxbuf = s.rxbuf := rfl
@[simp] theorem State.withNextEvent_rxlen (s : State) (e : HostEvent) : (s.withNextEvent e).rxlen = s.rxlen := rfl
@[simp] theorem State.withNextEvent_valid (s : State) (e : HostEvent) : (s.withNextEvent e).valid = s.valid := rfl
@[simp] theorem State.withNextEvent_errIllegal (s : State) (e : HostEvent) : (s.withNextEvent e).errIllegal = s.errIllegal := rfl
@[simp] theorem State.withNextEvent_errFunc (s : State) (e : HostEvent) : (s.withNextEvent e).errFunc = s.errFunc := rfl
@[simp] theorem State.withNextEvent_errRange (s : State) (e : HostEvent) : (s.withNextEvent e).errRange = s.errRange := rfl
@[simp] theorem State.withNextEvent_refused (s : State) (e : HostEvent) : (s.withNextEvent e).refused = s.refused := rfl
@[simp] theorem State.withNextEvent_reads (s : State) (e : HostEvent) : (s.withNextEvent e).reads = s.reads := rfl
@[simp] theorem State.withNextEvent_pending (s : State) (e : HostEvent) : (s.withNextEvent e).pending = e :: s.pending := rfl
@[simp] theorem State.withNextEvent_resets (s : State) (e : HostEvent) : (s.withNextEvent e).resets = s.resets := rfl
@[simp] theorem State.withNextEvent_builds (s : State) (e : HostEvent) : (s.withNextEvent e).builds = s.builds := rfl
@[simp] theorem State.withNextEvent_validDraws (s : State) (e : HostEvent) : (s.withNextEvent e).validDraws = s.validDraws := rfl

@[simp] theorem State.issue_crc (s : State) (ws : List HTWord) : (s.issue ws).crc = s.crc := rfl
@[simp] theorem State.issue_din (s : State) (ws : List HTWord) : (s.issue ws).din = s.din := rfl
@[simp] theorem State.issue_fc (s : State) (ws : List HTWord) : (s.issue ws).fc = s.fc := rfl
@[simp] theorem State.issue_addr (s : State) (ws : List HTWord) : (s.issue ws).addr = s.addr := rfl
@[simp] theorem State.issue_opcnt (s : State) (ws : List HTWord) : (s.issue ws).opcnt = s.opcnt := rfl
@[simp] theorem State.issue_nops (s : State) (ws : List HTWord) : (s.issue ws).nops = s.nops := rfl
@[simp] theorem State.issue_work0 (s : State) (ws : List HTWord) : (s.issue ws).work0 = s.work0 := rfl
@[simp] theorem State.issue_station0 (s : State) (ws : List HTWord) : (s.issue ws).station0 = s.station0 := rfl
@[simp] theorem State.issue_work1 (s : State) (ws : List HTWord) : (s.issue ws).work1 = s.work1 := rfl
@[simp] theorem State.issue_station1 (s : State) (ws : List HTWord) : (s.issue ws).station1 = s.station1 := rfl
@[simp] theorem State.issue_work2 (s : State) (ws : List HTWord) : (s.issue ws).work2 = s.work2 := rfl
@[simp] theorem State.issue_station2 (s : State) (ws : List HTWord) : (s.issue ws).station2 = s.station2 := rfl
@[simp] theorem State.issue_txbuf (s : State) (ws : List HTWord) : (s.issue ws).txbuf = s.txbuf := rfl
@[simp] theorem State.issue_txlen (s : State) (ws : List HTWord) : (s.issue ws).txlen = s.txlen := rfl
@[simp] theorem State.issue_rxbuf (s : State) (ws : List HTWord) : (s.issue ws).rxbuf = s.rxbuf := rfl
@[simp] theorem State.issue_rxlen (s : State) (ws : List HTWord) : (s.issue ws).rxlen = s.rxlen := rfl
@[simp] theorem State.issue_valid (s : State) (ws : List HTWord) : (s.issue ws).valid = s.valid := rfl
@[simp] theorem State.issue_errIllegal (s : State) (ws : List HTWord) : (s.issue ws).errIllegal = s.errIllegal := rfl
@[simp] theorem State.issue_errFunc (s : State) (ws : List HTWord) : (s.issue ws).errFunc = s.errFunc := rfl
@[simp] theorem State.issue_errRange (s : State) (ws : List HTWord) : (s.issue ws).errRange = s.errRange := rfl
@[simp] theorem State.issue_refused (s : State) (ws : List HTWord) : (s.issue ws).refused = s.refused := rfl
@[simp] theorem State.issue_reads (s : State) (ws : List HTWord) : (s.issue ws).reads = s.reads := rfl
@[simp] theorem State.issue_pending (s : State) (ws : List HTWord) : (s.issue ws).pending = s.pending ++ ws.map .access := rfl
@[simp] theorem State.issue_resets (s : State) (ws : List HTWord) : (s.issue ws).resets = s.resets := rfl
@[simp] theorem State.issue_builds (s : State) (ws : List HTWord) : (s.issue ws).builds = s.builds := rfl
@[simp] theorem State.issue_validDraws (s : State) (ws : List HTWord) : (s.issue ws).validDraws = s.validDraws := rfl

@[simp] theorem State.withFetchKey_crc (s : State) (k : Key) : (s.withFetchKey k).crc = s.crc := rfl
@[simp] theorem State.withFetchKey_din (s : State) (k : Key) : (s.withFetchKey k).din = s.din := rfl
@[simp] theorem State.withFetchKey_fc (s : State) (k : Key) : (s.withFetchKey k).fc = keyFc k := rfl
@[simp] theorem State.withFetchKey_addr (s : State) (k : Key) : (s.withFetchKey k).addr = s.addr := rfl
@[simp] theorem State.withFetchKey_opcnt (s : State) (k : Key) : (s.withFetchKey k).opcnt = s.opcnt := rfl
@[simp] theorem State.withFetchKey_nops (s : State) (k : Key) : (s.withFetchKey k).nops = s.nops := rfl
@[simp] theorem State.withFetchKey_work0 (s : State) (k : Key) : (s.withFetchKey k).work0 = s.work0 := rfl
@[simp] theorem State.withFetchKey_station0 (s : State) (k : Key) : (s.withFetchKey k).station0 = s.station0 := rfl
@[simp] theorem State.withFetchKey_work1 (s : State) (k : Key) : (s.withFetchKey k).work1 = s.work1 := rfl
@[simp] theorem State.withFetchKey_station1 (s : State) (k : Key) : (s.withFetchKey k).station1 = s.station1 := rfl
@[simp] theorem State.withFetchKey_work2 (s : State) (k : Key) : (s.withFetchKey k).work2 = s.work2 := rfl
@[simp] theorem State.withFetchKey_station2 (s : State) (k : Key) : (s.withFetchKey k).station2 = s.station2 := rfl
@[simp] theorem State.withFetchKey_txbuf (s : State) (k : Key) : (s.withFetchKey k).txbuf = s.txbuf := rfl
@[simp] theorem State.withFetchKey_txlen (s : State) (k : Key) : (s.withFetchKey k).txlen = s.txlen := rfl
@[simp] theorem State.withFetchKey_rxbuf (s : State) (k : Key) : (s.withFetchKey k).rxbuf = s.rxbuf := rfl
@[simp] theorem State.withFetchKey_rxlen (s : State) (k : Key) : (s.withFetchKey k).rxlen = s.rxlen := rfl
@[simp] theorem State.withFetchKey_valid (s : State) (k : Key) : (s.withFetchKey k).valid = s.valid := rfl
@[simp] theorem State.withFetchKey_errIllegal (s : State) (k : Key) : (s.withFetchKey k).errIllegal = s.errIllegal := rfl
@[simp] theorem State.withFetchKey_errFunc (s : State) (k : Key) : (s.withFetchKey k).errFunc = s.errFunc := rfl
@[simp] theorem State.withFetchKey_errRange (s : State) (k : Key) : (s.withFetchKey k).errRange = s.errRange := rfl
@[simp] theorem State.withFetchKey_refused (s : State) (k : Key) : (s.withFetchKey k).refused = s.refused := rfl
@[simp] theorem State.withFetchKey_reads (s : State) (k : Key) : (s.withFetchKey k).reads = s.reads := rfl
@[simp] theorem State.withFetchKey_pending (s : State) (k : Key) : (s.withFetchKey k).pending = .access (commandWord (keyCode k)) :: s.pending := rfl
@[simp] theorem State.withFetchKey_resets (s : State) (k : Key) : (s.withFetchKey k).resets = s.resets := rfl
@[simp] theorem State.withFetchKey_builds (s : State) (k : Key) : (s.withFetchKey k).builds = s.builds := rfl
@[simp] theorem State.withFetchKey_validDraws (s : State) (k : Key) : (s.withFetchKey k).validDraws = s.validDraws := rfl

/-! The platform's reset (70_reset R130) -/

@[simp] theorem State.applyReset_crc (s : State) : (s.applyReset).crc = Config.crcInit := rfl
@[simp] theorem State.applyReset_din (s : State) : (s.applyReset).din = 0x00#8 := rfl
@[simp] theorem State.applyReset_fc (s : State) : (s.applyReset).fc = 0x00#8 := rfl
@[simp] theorem State.applyReset_addr (s : State) : (s.applyReset).addr = 0x00#8 := rfl
@[simp] theorem State.applyReset_opcnt (s : State) : (s.applyReset).opcnt = 0x00#8 := rfl
@[simp] theorem State.applyReset_nops (s : State) : (s.applyReset).nops = 0x00#8 := rfl
@[simp] theorem State.applyReset_work0 (s : State) : (s.applyReset).work0 = 0x00#8 := rfl
@[simp] theorem State.applyReset_station0 (s : State) : (s.applyReset).station0 = 0x00#8 := rfl
@[simp] theorem State.applyReset_work1 (s : State) : (s.applyReset).work1 = 0x00#8 := rfl
@[simp] theorem State.applyReset_station1 (s : State) : (s.applyReset).station1 = 0x00#8 := rfl
@[simp] theorem State.applyReset_work2 (s : State) : (s.applyReset).work2 = 0x00#8 := rfl
@[simp] theorem State.applyReset_station2 (s : State) : (s.applyReset).station2 = 0x00#8 := rfl
@[simp] theorem State.applyReset_txbuf (s : State) : (s.applyReset).txbuf = [] := rfl
@[simp] theorem State.applyReset_txlen (s : State) : (s.applyReset).txlen = 0x00#8 := rfl
@[simp] theorem State.applyReset_rxbuf (s : State) : (s.applyReset).rxbuf = [] := rfl
@[simp] theorem State.applyReset_rxlen (s : State) : (s.applyReset).rxlen = 0x000#9 := rfl
@[simp] theorem State.applyReset_valid (s : State) : (s.applyReset).valid = false := rfl
@[simp] theorem State.applyReset_errIllegal (s : State) : (s.applyReset).errIllegal = false := rfl
@[simp] theorem State.applyReset_errFunc (s : State) : (s.applyReset).errFunc = false := rfl
@[simp] theorem State.applyReset_errRange (s : State) : (s.applyReset).errRange = false := rfl
@[simp] theorem State.applyReset_refused (s : State) : (s.applyReset).refused = s.refused := rfl
@[simp] theorem State.applyReset_reads (s : State) : (s.applyReset).reads = s.reads := rfl
@[simp] theorem State.applyReset_pending (s : State) : (s.applyReset).pending = s.pending := rfl
@[simp] theorem State.applyReset_resets (s : State) : (s.applyReset).resets = s.resets + 1 := rfl
@[simp] theorem State.applyReset_builds (s : State) : (s.applyReset).builds = s.builds := rfl
@[simp] theorem State.applyReset_validDraws (s : State) : (s.applyReset).validDraws = s.validDraws := rfl

/-! Raising a fault (60_exceptions R110) -/

@[simp] theorem State.raiseFault_crc (s : State) (k : FaultKind) : (s.raiseFault k).crc = s.crc := by cases k <;> rfl
@[simp] theorem State.raiseFault_din (s : State) (k : FaultKind) : (s.raiseFault k).din = s.din := by cases k <;> rfl
@[simp] theorem State.raiseFault_fc (s : State) (k : FaultKind) : (s.raiseFault k).fc = s.fc := by cases k <;> rfl
@[simp] theorem State.raiseFault_addr (s : State) (k : FaultKind) : (s.raiseFault k).addr = s.addr := by cases k <;> rfl
@[simp] theorem State.raiseFault_opcnt (s : State) (k : FaultKind) : (s.raiseFault k).opcnt = s.opcnt := by cases k <;> rfl
@[simp] theorem State.raiseFault_nops (s : State) (k : FaultKind) : (s.raiseFault k).nops = s.nops := by cases k <;> rfl
@[simp] theorem State.raiseFault_work0 (s : State) (k : FaultKind) : (s.raiseFault k).work0 = s.work0 := by cases k <;> rfl
@[simp] theorem State.raiseFault_station0 (s : State) (k : FaultKind) : (s.raiseFault k).station0 = s.station0 := by cases k <;> rfl
@[simp] theorem State.raiseFault_work1 (s : State) (k : FaultKind) : (s.raiseFault k).work1 = s.work1 := by cases k <;> rfl
@[simp] theorem State.raiseFault_station1 (s : State) (k : FaultKind) : (s.raiseFault k).station1 = s.station1 := by cases k <;> rfl
@[simp] theorem State.raiseFault_work2 (s : State) (k : FaultKind) : (s.raiseFault k).work2 = s.work2 := by cases k <;> rfl
@[simp] theorem State.raiseFault_station2 (s : State) (k : FaultKind) : (s.raiseFault k).station2 = s.station2 := by cases k <;> rfl
@[simp] theorem State.raiseFault_txbuf (s : State) (k : FaultKind) : (s.raiseFault k).txbuf = s.txbuf := by cases k <;> rfl
@[simp] theorem State.raiseFault_txlen (s : State) (k : FaultKind) : (s.raiseFault k).txlen = s.txlen := by cases k <;> rfl
@[simp] theorem State.raiseFault_rxbuf (s : State) (k : FaultKind) : (s.raiseFault k).rxbuf = s.rxbuf := by cases k <;> rfl
@[simp] theorem State.raiseFault_rxlen (s : State) (k : FaultKind) : (s.raiseFault k).rxlen = s.rxlen := by cases k <;> rfl
@[simp] theorem State.raiseFault_valid (s : State) (k : FaultKind) : (s.raiseFault k).valid = s.valid := by cases k <;> rfl
@[simp] theorem State.raiseFault_refused (s : State) (k : FaultKind) : (s.raiseFault k).refused = s.refused := by cases k <;> rfl
@[simp] theorem State.raiseFault_reads (s : State) (k : FaultKind) : (s.raiseFault k).reads = s.reads := by cases k <;> rfl
@[simp] theorem State.raiseFault_pending (s : State) (k : FaultKind) : (s.raiseFault k).pending = s.pending := by cases k <;> rfl
@[simp] theorem State.raiseFault_resets (s : State) (k : FaultKind) : (s.raiseFault k).resets = s.resets := by cases k <;> rfl
@[simp] theorem State.raiseFault_builds (s : State) (k : FaultKind) : (s.raiseFault k).builds = s.builds := by cases k <;> rfl
@[simp] theorem State.raiseFault_validDraws (s : State) (k : FaultKind) : (s.raiseFault k).validDraws = s.validDraws := by cases k <;> rfl

theorem State.faultBit_raiseFault (s : State) (k j : FaultKind) :
    (s.raiseFault k).faultBit j = (decide (j = k) || s.faultBit j) := by
  cases k <;> cases j <;> simp [State.raiseFault, State.faultBit]

/-! The encoder's two effects (41_frame_encoder R81, R82) -/

@[simp] theorem State.emit_crc (s : State) (p : List Byte) : (s.emit p).crc = s.crc := rfl
@[simp] theorem State.emit_din (s : State) (p : List Byte) : (s.emit p).din = s.din := rfl
@[simp] theorem State.emit_fc (s : State) (p : List Byte) : (s.emit p).fc = s.fc := rfl
@[simp] theorem State.emit_addr (s : State) (p : List Byte) : (s.emit p).addr = s.addr := rfl
@[simp] theorem State.emit_opcnt (s : State) (p : List Byte) : (s.emit p).opcnt = s.opcnt := rfl
@[simp] theorem State.emit_nops (s : State) (p : List Byte) : (s.emit p).nops = s.nops := rfl
@[simp] theorem State.emit_work0 (s : State) (p : List Byte) : (s.emit p).work0 = s.work0 := rfl
@[simp] theorem State.emit_station0 (s : State) (p : List Byte) : (s.emit p).station0 = s.station0 := rfl
@[simp] theorem State.emit_work1 (s : State) (p : List Byte) : (s.emit p).work1 = s.work1 := rfl
@[simp] theorem State.emit_station1 (s : State) (p : List Byte) : (s.emit p).station1 = s.station1 := rfl
@[simp] theorem State.emit_work2 (s : State) (p : List Byte) : (s.emit p).work2 = s.work2 := rfl
@[simp] theorem State.emit_station2 (s : State) (p : List Byte) : (s.emit p).station2 = s.station2 := rfl
@[simp] theorem State.emit_txbuf (s : State) (p : List Byte) : (s.emit p).txbuf = s.txbuf.writeAll 0 (withCrc p) := rfl
@[simp] theorem State.emit_txlen (s : State) (p : List Byte) : (s.emit p).txlen = BitVec.ofNat 8 (withCrc p).length := rfl
@[simp] theorem State.emit_rxbuf (s : State) (p : List Byte) : (s.emit p).rxbuf = s.rxbuf := rfl
@[simp] theorem State.emit_rxlen (s : State) (p : List Byte) : (s.emit p).rxlen = s.rxlen := rfl
@[simp] theorem State.emit_valid (s : State) (p : List Byte) : (s.emit p).valid = s.valid := rfl
@[simp] theorem State.emit_errIllegal (s : State) (p : List Byte) : (s.emit p).errIllegal = s.errIllegal := rfl
@[simp] theorem State.emit_errFunc (s : State) (p : List Byte) : (s.emit p).errFunc = s.errFunc := rfl
@[simp] theorem State.emit_errRange (s : State) (p : List Byte) : (s.emit p).errRange = s.errRange := rfl
@[simp] theorem State.emit_refused (s : State) (p : List Byte) : (s.emit p).refused = s.refused := rfl
@[simp] theorem State.emit_reads (s : State) (p : List Byte) : (s.emit p).reads = s.reads := rfl
@[simp] theorem State.emit_pending (s : State) (p : List Byte) : (s.emit p).pending = s.pending := rfl
@[simp] theorem State.emit_resets (s : State) (p : List Byte) : (s.emit p).resets = s.resets := rfl
@[simp] theorem State.emit_builds (s : State) (p : List Byte) : (s.emit p).builds = s.builds + 1 := rfl
@[simp] theorem State.emit_validDraws (s : State) (p : List Byte) : (s.emit p).validDraws = s.validDraws := rfl

@[simp] theorem State.failBuild_crc (s : State) (k : FaultKind) : (s.failBuild k).crc = s.crc := by cases k <;> rfl
@[simp] theorem State.failBuild_din (s : State) (k : FaultKind) : (s.failBuild k).din = s.din := by cases k <;> rfl
@[simp] theorem State.failBuild_fc (s : State) (k : FaultKind) : (s.failBuild k).fc = s.fc := by cases k <;> rfl
@[simp] theorem State.failBuild_addr (s : State) (k : FaultKind) : (s.failBuild k).addr = s.addr := by cases k <;> rfl
@[simp] theorem State.failBuild_opcnt (s : State) (k : FaultKind) : (s.failBuild k).opcnt = s.opcnt := by cases k <;> rfl
@[simp] theorem State.failBuild_nops (s : State) (k : FaultKind) : (s.failBuild k).nops = s.nops := by cases k <;> rfl
@[simp] theorem State.failBuild_work0 (s : State) (k : FaultKind) : (s.failBuild k).work0 = s.work0 := by cases k <;> rfl
@[simp] theorem State.failBuild_station0 (s : State) (k : FaultKind) : (s.failBuild k).station0 = s.station0 := by cases k <;> rfl
@[simp] theorem State.failBuild_work1 (s : State) (k : FaultKind) : (s.failBuild k).work1 = s.work1 := by cases k <;> rfl
@[simp] theorem State.failBuild_station1 (s : State) (k : FaultKind) : (s.failBuild k).station1 = s.station1 := by cases k <;> rfl
@[simp] theorem State.failBuild_work2 (s : State) (k : FaultKind) : (s.failBuild k).work2 = s.work2 := by cases k <;> rfl
@[simp] theorem State.failBuild_station2 (s : State) (k : FaultKind) : (s.failBuild k).station2 = s.station2 := by cases k <;> rfl
@[simp] theorem State.failBuild_txbuf (s : State) (k : FaultKind) : (s.failBuild k).txbuf = s.txbuf := by cases k <;> rfl
@[simp] theorem State.failBuild_txlen (s : State) (k : FaultKind) : (s.failBuild k).txlen = 0x00#8 := by cases k <;> rfl
@[simp] theorem State.failBuild_rxbuf (s : State) (k : FaultKind) : (s.failBuild k).rxbuf = s.rxbuf := by cases k <;> rfl
@[simp] theorem State.failBuild_rxlen (s : State) (k : FaultKind) : (s.failBuild k).rxlen = s.rxlen := by cases k <;> rfl
@[simp] theorem State.failBuild_valid (s : State) (k : FaultKind) : (s.failBuild k).valid = s.valid := by cases k <;> rfl
@[simp] theorem State.failBuild_refused (s : State) (k : FaultKind) : (s.failBuild k).refused = s.refused := by cases k <;> rfl
@[simp] theorem State.failBuild_reads (s : State) (k : FaultKind) : (s.failBuild k).reads = s.reads := by cases k <;> rfl
@[simp] theorem State.failBuild_pending (s : State) (k : FaultKind) : (s.failBuild k).pending = s.pending := by cases k <;> rfl
@[simp] theorem State.failBuild_resets (s : State) (k : FaultKind) : (s.failBuild k).resets = s.resets := by cases k <;> rfl
@[simp] theorem State.failBuild_builds (s : State) (k : FaultKind) : (s.failBuild k).builds = s.builds + 1 := by cases k <;> rfl
@[simp] theorem State.failBuild_validDraws (s : State) (k : FaultKind) : (s.failBuild k).validDraws = s.validDraws := by cases k <;> rfl

theorem State.faultBit_failBuild (s : State) (k j : FaultKind) :
    (s.failBuild k).faultBit j = (decide (j = k) || s.faultBit j) := by
  cases k <;> cases j <;> simp [State.failBuild, State.raiseFault, State.faultBit]

end Sys2Proof.Machine
end

