-- ==== Sys2Proof/Laws/Memory.lean ====
section
/-! SUPPORT. The laws of a frame buffer: read after write, and every write keeps the canonical form. -/

namespace Sys2Proof.Machine

theorem Memory.read_write_same (m : Memory) (i : Nat) (b : Byte) : (m.write i b).read i = some b := by
  fun_induction Memory.write m i b with
  | case1 => simp [Memory.read]
  | case2 => simp [Memory.read]
  | case3 => simp [Memory.read]
  | case4 j c rest hlt hne ih => simpa [Memory.read, hne] using ih

theorem Memory.read_write_other (m : Memory) (i j : Nat) (b : Byte) (h : j ≠ i) : (m.write i b).read j = m.read j := by
  fun_induction Memory.write m i b with
  | case1 => simp [Memory.read, h]
  | case2 k c rest hlt => simp [Memory.read, h]
  | case3 c rest hlt => simp [Memory.read, h]
  | case4 k c rest hlt hne ih => simp [Memory.read, ih]

/-- What a byte reads as after a write: the byte written, or what it read as before. -/
theorem Memory.read_write (m : Memory) (i j : Nat) (b : Byte) :
    (m.write i b).read j = if j = i then some b else m.read j := by
  split
  · next h => subst h; exact Memory.read_write_same m j b
  · next h => exact Memory.read_write_other m i j b h

theorem Memory.read_writeAll_below (m : Memory) (i j : Nat) (bs : List Byte) (h : j < i) :
    (m.writeAll i bs).read j = m.read j := by
  fun_induction Memory.writeAll m i bs with
  | case1 => rfl
  | case2 m i b rest ih => rw [ih (by omega), Memory.read_write_other _ _ _ _ (by omega)]

/-- What a byte reads as after a sequence is written at `i`: inside the sequence its byte, outside what it read as
before. -/
theorem Memory.read_writeAll (m : Memory) (i j : Nat) (bs : List Byte) :
    (m.writeAll i bs).read j = if i ≤ j ∧ j < i + bs.length then bs[j - i]? else m.read j := by
  fun_induction Memory.writeAll m i bs with
  | case1 m i => simp
  | case2 m i b rest ih =>
    by_cases hj : j = i
    · subst hj
      rw [Memory.read_writeAll_below _ _ _ _ (by omega), Memory.read_write_same]
      simp
    · rw [ih, Memory.read_write_other _ _ _ _ hj]
      simp only [List.length_cons]
      by_cases hin : i + 1 ≤ j ∧ j < i + 1 + rest.length
      · rw [if_pos hin, if_pos (by omega), show j - i = (j - (i + 1)) + 1 by omega, List.getElem?_cons_succ]
      · rw [if_neg hin, if_neg (by omega)]

theorem Memory.wfFrom_write (size low i : Nat) (b : Byte) (m : Memory) (hl : low ≤ i) (hs : i < size)
    (h : m.wfFrom size low = true) : (m.write i b).wfFrom size low = true := by
  induction m generalizing low with
  | nil => simp [Memory.write, Memory.wfFrom, hl, hs]
  | cons cell rest ih =>
    obtain ⟨j, c⟩ := cell
    simp only [Memory.wfFrom, Bool.and_eq_true, decide_eq_true_eq] at h
    obtain ⟨⟨hlj, hjs⟩, hrest⟩ := h
    simp only [Memory.write]
    split
    · next hlt => simp [Memory.wfFrom, hl, hs, hjs, hrest, Nat.succ_le_of_lt hlt]
    · next hnlt =>
      split
      · next heq => subst heq; simp [Memory.wfFrom, hl, hs, hrest]
      · next hne =>
        simp only [Memory.wfFrom, Bool.and_eq_true, decide_eq_true_eq]
        exact ⟨⟨hlj, hjs⟩, ih (j + 1) (by omega) hrest⟩

/-- A write inside the buffer keeps the canonical form. -/
theorem Memory.wf_write (size i : Nat) (b : Byte) (m : Memory) (hs : i < size) (h : m.wf size = true) :
    (m.write i b).wf size = true :=
  Memory.wfFrom_write size 0 i b m (Nat.zero_le i) hs h

/-- Writing a sequence that fits keeps the canonical form. -/
theorem Memory.wf_writeAll (size i : Nat) (bs : List Byte) (m : Memory) (hs : i + bs.length ≤ size)
    (h : m.wf size = true) : (m.writeAll i bs).wf size = true := by
  fun_induction Memory.writeAll m i bs with
  | case1 => exact h
  | case2 m i b rest ih =>
    simp only [List.length_cons] at hs
    exact ih (by omega) (Memory.wf_write size i b m (by omega) h)

/-- The buffers of the reset state are in canonical form. -/
theorem Memory.wf_reset : State.reset.txbuf.wf Config.txbufSize = true ∧ State.reset.rxbuf.wf Config.rxbufSize = true :=
  ⟨rfl, rfl⟩

theorem Memory.read_eq_none_of_lt (size low j : Nat) (m : Memory) (h : m.wfFrom size low = true) (hj : j < low) :
    m.read j = none := by
  induction m generalizing low with
  | nil => rfl
  | cons cell rest ih =>
    obtain ⟨k, c⟩ := cell
    simp only [Memory.wfFrom, Bool.and_eq_true, decide_eq_true_eq] at h
    have hk : j ≠ k := by omega
    simp only [Memory.read, hk, if_false]
    exact ih (k + 1) h.2 (by omega)

/-- The form is canonical: two buffers of it that read alike at every index are equal data. -/
theorem Memory.ext_of_wfFrom (size low : Nat) (m n : Memory) (hm : m.wfFrom size low = true)
    (hn : n.wfFrom size low = true) (h : ∀ j, m.read j = n.read j) : m = n := by
  induction m generalizing n low with
  | nil =>
    cases n with
    | nil => rfl
    | cons cell rest => have := h cell.1; simp [Memory.read] at this
  | cons cell rest ih =>
    obtain ⟨j, b⟩ := cell
    cases n with
    | nil => have := h j; simp [Memory.read] at this
    | cons cell' rest' =>
      obtain ⟨k, c⟩ := cell'
      simp only [Memory.wfFrom, Bool.and_eq_true, decide_eq_true_eq] at hm hn
      obtain ⟨hm1, hm2⟩ := hm
      obtain ⟨hn1, hn2⟩ := hn
      have hjk : j = k := by
        rcases Nat.lt_trichotomy j k with hlt | heq | hgt
        · have hj := h j
          have hr := Memory.read_eq_none_of_lt size (k + 1) j rest' hn2 (by omega)
          have hne : j ≠ k := by omega
          simp [Memory.read, hne, hr] at hj
        · exact heq
        · have hk := h k
          have hr := Memory.read_eq_none_of_lt size (j + 1) k rest hm2 (by omega)
          have hne : k ≠ j := by omega
          simp [Memory.read, hne, hr] at hk
      subst hjk
      have hb : b = c := by have := h j; simpa [Memory.read] using this
      subst hb
      have htail : rest = rest' := by
        refine ih (j + 1) rest' hm2 hn2 ?_
        intro i
        by_cases hij : i = j
        · subst hij
          rw [Memory.read_eq_none_of_lt size (i + 1) i rest hm2 (by omega),
            Memory.read_eq_none_of_lt size (i + 1) i rest' hn2 (by omega)]
        · have := h i
          simpa [Memory.read, hij] using this
      rw [htail]

/-- Equal contents are equal data. -/
theorem Memory.ext_of_wf (size : Nat) (m n : Memory) (hm : m.wf size = true) (hn : n.wf size = true)
    (h : ∀ j, m.read j = n.read j) : m = n :=
  Memory.ext_of_wfFrom size 0 m n hm hn h

end Sys2Proof.Machine
end

