-- ==== Sys2Proof/Laws/Ops.lean ====
section
/-! SUPPORT. One lemma per shared operation, saying all that it can do; proofs cite these and do not unfold the
operations. -/

namespace Sys2Proof.Machine

theorem refuse_next (why : RefuseReason) (s : State) : refuse why s = .next s.markRefused := rfl

theorem refuseWord_next (why : Reject) (s : State) : refuseWord why s = .next s.markRefused := rfl

theorem buildFrame_ok (p : List Byte) (s : State) : buildFrame true p s = .next (s.emit p) := rfl

theorem buildFrame_fault (p : List Byte) (s : State) : buildFrame false p s = .next (s.failBuild .errRange) := rfl

/-- A BUILD variant either writes its frame or faults with ERR_RANGE. -/
theorem buildFrame_cases {ok : Bool} {p : List Byte} {s t : State} (h : buildFrame ok p s = .next t) :
    (ok = true ∧ t = s.emit p) ∨ (ok = false ∧ t = s.failBuild .errRange) := by
  cases ok
  · exact .inr ⟨rfl, by simpa [buildFrame] using h.symm⟩
  · exact .inl ⟨rfl, by simpa [buildFrame] using h.symm⟩

@[simp] theorem length_withCrc (p : List Byte) : (withCrc p).length = p.length + 2 := by
  simp [withCrc, littleEndian]

@[simp] theorem length_launchPayload (s : State) : s.launchPayload.length = 6 := rfl

@[simp] theorem length_readTorPayload (s : State) : s.readTorPayload.length = 6 := rfl

theorem length_operations (s : State) : s.operations.length = min s.nops.toNat 3 := by
  simp [State.operations, State.slots]

@[simp] theorem length_bigEndian (v : U16) : (bigEndian v).length = 2 := rfl

theorem length_flatMap_bigEndian (ops : List (Byte × Byte)) :
    (ops.flatMap (fun op => bigEndian (operationValue op))).length = 2 * ops.length := by
  induction ops with
  | nil => rfl
  | cons op rest ih => simp only [List.flatMap_cons, List.length_append, ih, List.length_cons, length_bigEndian]; omega

theorem length_missionPayload (s : State) : s.missionPayload.length = 9 + 2 * min s.nops.toNat 3 := by
  simp only [State.missionPayload, List.length_append, length_flatMap_bigEndian, length_operations, length_bigEndian,
    List.length_cons, List.length_nil]

/-- 41_frame_encoder R82: NOPS lies in its range where the mission check passes. -/
theorem nops_of_missionOk {s : State} (h : s.missionOk = true) : 1 ≤ s.nops.toNat ∧ s.nops.toNat ≤ 3 := by
  simp only [State.missionOk, inRange, Bool.and_eq_true, decide_eq_true_eq] at h
  exact h.1.2

/-- The byte TXBUF holds after a frame is emitted: the frame's byte inside it, the old byte outside it
(10_state R14). -/
theorem txByte_emit (s : State) (p : List Byte) (i : Nat) :
    (s.emit p).txByte i = if i < (withCrc p).length then (withCrc p).getD i 0#8 else s.txByte i := by
  simp only [State.txByte, State.emit_txbuf, State.emit_resets, Memory.read_writeAll, Nat.zero_le, true_and, Nat.zero_add,
    Nat.sub_zero]
  split
  · next h => simp [List.getElem?_eq_getElem h]
  · rfl

theorem rxByte_emit (s : State) (p : List Byte) (i : Nat) : (s.emit p).rxByte i = s.rxByte i := rfl

theorem txByte_failBuild (s : State) (k : FaultKind) (i : Nat) : (s.failBuild k).txByte i = s.txByte i := by
  simp [State.txByte]

theorem rxByte_failBuild (s : State) (k : FaultKind) (i : Nat) : (s.failBuild k).rxByte i = s.rxByte i := by
  simp [State.rxByte]

/-- After a frame is emitted, TXBUF holds exactly that frame below TXLEN (41_frame_encoder R81). -/
theorem txFrame_emit (s : State) (p : List Byte) (h : p.length + 2 < 256) : (s.emit p).txFrame = withCrc p := by
  have hlen : (BitVec.ofNat 8 (withCrc p).length).toNat = (withCrc p).length := by
    simp only [BitVec.toNat_ofNat, length_withCrc]; omega
  apply List.ext_getElem
  · simp only [State.txFrame, State.emit_txlen, List.length_map, List.length_range, hlen]
  · intro i _ h2
    simp only [State.txFrame, List.getElem_map, List.getElem_range, txByte_emit, if_pos h2]
    simp [List.getElem?_eq_getElem h2]

/-- BUILD: one of the three variants runs, or ERR_FUNC is raised (41_frame_encoder R80). -/
theorem runBuild_cases {s t : State} (h : runBuild s = .next t) :
    (s.fc = 0x10#8 ∧ execBuildMission s = .next t) ∨ (s.fc = 0x05#8 ∧ execBuildLaunch s = .next t) ∨
      (s.fc = 0x02#8 ∧ execBuildReadTor s = .next t) ∨
      (s.fc ≠ 0x10#8 ∧ s.fc ≠ 0x05#8 ∧ s.fc ≠ 0x02#8 ∧ t = s.failBuild .errFunc) := by
  unfold runBuild at h
  split at h
  · next h1 => exact .inl ⟨h1, h⟩
  · next h1 =>
    split at h
    · next h2 => exact .inr (.inl ⟨h2, h⟩)
    · next h2 =>
      split at h
      · next h3 => exact .inr (.inr (.inl ⟨h3, h⟩))
      · next h3 => exact .inr (.inr (.inr ⟨h1, h2, h3, by simpa using h.symm⟩))

/-- Every BUILD either emits a frame of 8, 13, 15 or 17 bytes or fails (10_state R15). -/
theorem runBuild_effect {s t : State} (h : runBuild s = .next t) :
    (∃ p, t = s.emit p ∧ (p.length = 6 ∨ p.length = 11 ∨ p.length = 13 ∨ p.length = 15)) ∨ (∃ k, t = s.failBuild k) := by
  rcases runBuild_cases h with ⟨_, h⟩ | ⟨_, h⟩ | ⟨_, h⟩ | ⟨_, _, _, h⟩
  · rcases buildFrame_cases h with ⟨hok, ht⟩ | ⟨_, ht⟩
    · have := nops_of_missionOk hok
      exact .inl ⟨_, ht, by rw [length_missionPayload]; omega⟩
    · exact .inr ⟨_, ht⟩
  · rcases buildFrame_cases h with ⟨_, ht⟩ | ⟨_, ht⟩
    · exact .inl ⟨_, ht, by simp⟩
    · exact .inr ⟨_, ht⟩
  · rcases buildFrame_cases h with ⟨_, ht⟩ | ⟨_, ht⟩
    · exact .inl ⟨_, ht, by simp⟩
    · exact .inr ⟨_, ht⟩
  · exact .inr ⟨_, h⟩

/-- Every byte below RXLEN was written, read as a statement about each index. -/
theorem rxWritten_iff (s : State) : s.rxWritten = true ↔ ∀ i, i < s.rxlen.toNat → (s.rxbuf.read i).isSome = true := by
  simp [State.rxWritten]

/-- What VALIDATE computes VALID from is known when it is short or all written. -/
theorem responseKnown_iff (s : State) : s.responseKnown = true ↔ s.rxlen.toNat < 3 ∨ s.rxWritten = true := by
  simp [State.responseKnown]

theorem execValidate_known {s : State} (hlen : s.rxlen.toNat ≤ 256) (hk : s.responseKnown = true) :
    execValidate s = .next { s with valid := validate s.rxFrame } := by
  rw [execValidate, if_neg (Nat.not_lt.mpr hlen), if_pos hk]

/-- VALIDATE: the bound on RXLEN, then the test, or a free value where the test would read a byte nothing has written
(42_validator R91, 20_memory R45). -/
theorem execValidate_cases {s t : State} (h : execValidate s = .next t) :
    (256 < s.rxlen.toNat ∧ t = { s with valid := false, errRange := true }) ∨
      (s.rxlen.toNat ≤ 256 ∧ s.responseKnown = true ∧ t = { s with valid := validate s.rxFrame }) ∨
      (s.rxlen.toNat ≤ 256 ∧ s.responseKnown = false ∧
        t = { s with valid := Config.unknownValid s.validDraws s.rxFrame, validDraws := s.validDraws + 1 }) := by
  unfold execValidate at h
  split at h
  · next hlt => exact .inl ⟨hlt, by simpa [State.raiseFault] using h.symm⟩
  · next hnlt =>
    have hle : s.rxlen.toNat ≤ 256 := Nat.not_lt.mp hnlt
    split at h
    · next hk => exact .inr (.inl ⟨hle, hk, by simpa using h.symm⟩)
    · next hk => exact .inr (.inr ⟨hle, by simpa using hk, by simpa using h.symm⟩)

/-- Issuing a command: one of the four, or ERR_ILLEGAL (43_host_access R102). -/
theorem runCommand_cases {code : Byte} {s t : State} (h : runCommand code s = .next t) :
    (code = 0x01#8 ∧ t = { s with crc := Config.crcInit }) ∨ (code = 0x02#8 ∧ t = { s with crc := crcStep8 s.crc s.din }) ∨
      (code = 0x04#8 ∧ runBuild s = .next t) ∨ (code = 0x08#8 ∧ execValidate s = .next t) ∨
      (code ≠ 0x01#8 ∧ code ≠ 0x02#8 ∧ code ≠ 0x04#8 ∧ code ≠ 0x08#8 ∧ t = s.raiseFault .errIllegal) := by
  unfold runCommand at h
  split at h
  · next h1 => exact .inl ⟨h1, by simpa [execCrcInit] using h.symm⟩
  · next h1 =>
    split at h
    · next h2 => exact .inr (.inl ⟨h2, by simpa [execCrcUpdate] using h.symm⟩)
    · next h2 =>
      split at h
      · next h3 => exact .inr (.inr (.inl ⟨h3, h⟩))
      · next h3 =>
        split at h
        · next h4 => exact .inr (.inr (.inr (.inl ⟨h4, h⟩)))
        · next h4 => exact .inr (.inr (.inr (.inr ⟨h1, h2, h3, h4, by simpa using h.symm⟩)))

/-- No command writes an operand register, RXBUF, RXLEN, REFUSED, the values read, or the queue (10_state R12, R16, R17). -/
theorem runCommand_frame {code : Byte} {s t : State} (h : runCommand code s = .next t) :
    t.din = s.din ∧ t.fc = s.fc ∧ t.addr = s.addr ∧ t.opcnt = s.opcnt ∧ t.nops = s.nops ∧ t.work0 = s.work0 ∧
      t.station0 = s.station0 ∧ t.work1 = s.work1 ∧ t.station1 = s.station1 ∧ t.work2 = s.work2 ∧
      t.station2 = s.station2 ∧ t.rxbuf = s.rxbuf ∧ t.rxlen = s.rxlen ∧ t.refused = s.refused ∧ t.reads = s.reads ∧
      t.pending = s.pending ∧ t.resets = s.resets := by
  rcases runCommand_cases h with ⟨_, rfl⟩ | ⟨_, rfl⟩ | ⟨_, h⟩ | ⟨_, h⟩ | ⟨_, _, _, _, rfl⟩
  · simp
  · simp
  · rcases runBuild_effect h with ⟨p, rfl, _⟩ | ⟨k, rfl⟩ <;> simp
  · rcases execValidate_cases h with ⟨_, rfl⟩ | ⟨_, _, rfl⟩ | ⟨_, _, rfl⟩ <;> simp
  · simp

/-- WR: a command, a store, or a refusal (43_host_access R100). -/
theorem execWr_cases {a : Addr} {d : Byte} {s t : State} (h : execWr a d s = .next t) :
    (regOf a = some .cmd ∧ runCommand d s = .next t) ∨ (∃ r, regOf a = some r ∧ r ≠ .cmd ∧ s.storeReg r d = some t) ∨
      (((regOf a).bind fun r => s.storeReg r d) = none ∧ regOf a ≠ some .cmd ∧ t = s.markRefused) := by
  unfold execWr at h
  split at h
  · next hr => exact .inr (.inr ⟨by simp [hr], by simp [hr], by simpa [refuse] using h.symm⟩)
  · next hr => exact .inl ⟨hr, h⟩
  · next r hne hr =>
    split at h
    · next u hu =>
      refine .inr (.inl ⟨r, hr, hne, ?_⟩)
      rw [hu]; simpa using h
    · next hu =>
      refine .inr (.inr ⟨by simp [hr, hu], fun hc => hne ?_, by simpa [refuse] using h.symm⟩)
      rw [hr] at hc
      exact Option.some.inj hc

/-- RD: a value, or a refusal (43_host_access R101). -/
theorem execRd_cases {a : Addr} {d : Byte} {s t : State} (h : execRd a d s = .next t) :
    (d = 0x00#8 ∧ ∃ r b, regOf a = some r ∧ s.loadReg r = some b ∧ t = s.pushRead b) ∨
      ((d ≠ 0x00#8 ∨ (regOf a).bind s.loadReg = none) ∧ t = s.markRefused) := by
  unfold execRd at h
  split at h
  · next hd => exact .inr ⟨.inl hd, by simpa [refuse] using h.symm⟩
  · next hd =>
    split at h
    · next b hb =>
      obtain ⟨r, hr, hl⟩ := Option.bind_eq_some_iff.mp hb
      exact .inl ⟨by simpa using hd, r, b, hr, hl, by simpa using h.symm⟩
    · next hn => exact .inr ⟨.inr hn, by simpa [refuse] using h.symm⟩

/-- A store changes operand registers, RXBUF or RXLEN alone (20_memory R37). -/
theorem storeReg_frame {r : RegName} {d : Byte} {s t : State} (h : s.storeReg r d = some t) :
    t.crc = s.crc ∧ t.txbuf = s.txbuf ∧ t.txlen = s.txlen ∧ t.valid = s.valid ∧ t.errIllegal = s.errIllegal ∧
      t.errFunc = s.errFunc ∧ t.errRange = s.errRange ∧ t.refused = s.refused ∧ t.reads = s.reads ∧
      t.pending = s.pending ∧ t.resets = s.resets ∧ t.builds = s.builds ∧ t.validDraws = s.validDraws := by
  cases r <;> simp only [State.storeReg, Option.some.injEq, reduceCtorEq] at h <;> subst h <;> simp

/-- RD and refusals aside, what a read address names: a read of the register returns its byte. -/
theorem execRd_of_loadReg {a : Addr} {r : RegName} {b : Byte} {s : State} (hr : regOf a = some r)
    (hb : s.loadReg r = some b) : execRd a 0x00#8 s = .next (s.pushRead b) := by
  simp [execRd, hr, hb]

/-- A write of a writable register stores the byte. -/
theorem execWr_of_storeReg {a : Addr} {r : RegName} {d : Byte} {s t : State} (hr : regOf a = some r)
    (ht : s.storeReg r d = some t) : execWr a d s = .next t := by
  cases r <;> simp_all [execWr, State.storeReg]

end Sys2Proof.Machine
end

