-- ==== Sys2Proof/Laws/Step.lean ====
section
/-! SUPPORT. What one step can do, said once. -/

namespace Sys2Proof.Machine

theorem step_idle {s : State} (h : s.pending = []) : step s = .next s := by
  simp [step, h]

theorem step_reset {s : State} {rest : List HostEvent} (h : s.pending = .reset :: rest) :
    step s = .next s.popEvent.applyReset := by
  simp [step, h]

theorem step_access {s : State} {w : HTWord} {rest : List HostEvent} {i : Instr} (h : s.pending = .access w :: rest)
    (hd : decode (.ht w) = .ok i) : step s = exec i s.popEvent := by
  simp [step, h, hd]

theorem step_rejected {s : State} {w : HTWord} {rest : List HostEvent} {why : Reject} (h : s.pending = .access w :: rest)
    (hd : decode (.ht w) = .error why) : step s = .next s.popEvent.markRefused := by
  simp [step, h, hd, refuseWord, refuse]

/-- A step waits, resets, runs the decoded transaction, or refuses a reserved word (10_state R11). -/
theorem step_cases {s t : State} (h : step s = .next t) :
    (s.pending = [] ∧ t = s) ∨ (∃ rest, s.pending = .reset :: rest ∧ t = s.popEvent.applyReset) ∨
      (∃ w rest i, s.pending = .access w :: rest ∧ decode (.ht w) = .ok i ∧ exec i s.popEvent = .next t) ∨
      (∃ w rest why, s.pending = .access w :: rest ∧ decode (.ht w) = .error why ∧ t = s.popEvent.markRefused) := by
  rcases hp : s.pending with _ | ⟨e, rest⟩
  · rw [step_idle hp] at h
    exact .inl ⟨rfl, by simpa using h.symm⟩
  · cases e with
    | reset =>
      rw [step_reset hp] at h
      exact .inr (.inl ⟨rest, rfl, by simpa using h.symm⟩)
    | access w =>
      rcases hd : decode (.ht w) with why | i
      · rw [step_rejected hp hd] at h
        exact .inr (.inr (.inr ⟨w, rest, why, rfl, hd, by simpa using h.symm⟩))
      · rw [step_access hp hd] at h
        exact .inr (.inr (.inl ⟨w, rest, i, rfl, hd, h⟩))

/-- A run of no step. -/
theorem run_zero (s : State) : Host.Core.run Sys2Proof.core 0 s = .next s := rfl

/-- A run of one step more, where the first step goes on. -/
theorem run_of_step {n : Nat} {s t : State} (h : step s = .next t) :
    Host.Core.run Sys2Proof.core (n + 1) s = Host.Core.run Sys2Proof.core n t := by
  have unfolded : ∀ (M : Host.Core) (u : M.State), M.run (n + 1) u =
      match M.step u with
      | .next v => M.run n v
      | .fault r => .fault r
      | .refused r => .refused r := fun _ _ => rfl
  have hs : Sys2Proof.core.step s = .next t := h
  have hrun := unfolded Sys2Proof.core s
  rw [hs] at hrun
  exact hrun

/-- A run whose first step is a refusal that stops is that refusal. -/
theorem run_of_refused {n : Nat} {s : State} {r : Refusal} (h : step s = .refused r) :
    Host.Core.run Sys2Proof.core (n + 1) s = .refused r := by
  have unfolded : ∀ (M : Host.Core) (u : M.State), M.run (n + 1) u =
      match M.step u with
      | .next v => M.run n v
      | .fault r => .fault r
      | .refused r => .refused r := fun _ _ => rfl
  have hs : Sys2Proof.core.step s = .refused r := h
  have hrun := unfolded Sys2Proof.core s
  rw [hs] at hrun
  exact hrun

/-- A run of `n + m` steps is a run of `m` from where a run of `n` ends. -/
theorem run_add {n m : Nat} {s t : State} (h : Host.Core.run Sys2Proof.core n s = .next t) :
    Host.Core.run Sys2Proof.core (n + m) s = Host.Core.run Sys2Proof.core m t := by
  induction n generalizing s with
  | zero => rw [run_zero] at h; cases h; rw [Nat.zero_add]
  | succ n ih =>
    rcases hs : step s with u | f | r
    · rw [run_of_step hs] at h
      rw [show n + 1 + m = n + m + 1 by omega, run_of_step hs]
      exact ih h
    · cases f
    · rw [run_of_refused hs] at h
      cases h

/-- A transaction word decodes to a WR with its own fields, or to an RD with data 0, or is rejected for its data field
(30_encoding R51). -/
theorem decodeHt_cases (w : HTWord) :
    (htWrite w = true ∧ decode (.ht w) = .ok (.wr (htAddr w) (htData w))) ∨
      (htWrite w = false ∧ htData w = 0#8 ∧ decode (.ht w) = .ok (.rd (htAddr w) 0#8)) ∨
      (htWrite w = false ∧ htData w ≠ 0#8 ∧ decode (.ht w) = .error .readDataNonzero) := by
  cases hw : htWrite w
  · by_cases hd : htData w = 0#8
    · exact .inr (.inl ⟨rfl, hd, by simp [decode, decodeHt, hw, hd]⟩)
    · exact .inr (.inr ⟨rfl, hd, by simp [decode, decodeHt, hw, hd]⟩)
  · exact .inl ⟨rfl, by simp [decode, decodeHt, hw]⟩

end Sys2Proof.Machine
end

