-- ==== Sys2Proof/Laws/PerInstr.lean ====
section
/-! SUPPORT. The per-instruction family FitsRow: each well-formed instruction's encoding has the fixed bits of its own
row of spec/opcode_table.json, whatever its free bits are. -/

namespace Sys2Proof.Laws

/-- The pattern and mask of an instruction's row in spec/opcode_table.json. -/
def FitsRow.row : Instr → Nat × Nat
  | .crcInit => (0x0001, 0x00FF)
  | .crcUpdate => (0x0002, 0x00FF)
  | .validate => (0x0008, 0x00FF)
  | .buildMission => (0x1004, 0xFFFF)
  | .buildLaunch => (0x0504, 0xFFFF)
  | .buildReadTor => (0x0204, 0xFFFF)
  | .wr _ _ => (0x20000, 0x20000)
  | .rd _ _ => (0x00000, 0x200FF)

/-- An encoded form has a row's fixed bits. -/
def FitsRow.fits (row : Nat × Nat) : Encoded → Prop
  | .key k => k &&& BitVec.ofNat 16 row.2 = BitVec.ofNat 16 row.1
  | .ht w => w &&& BitVec.ofNat 18 row.2 = BitVec.ofNat 18 row.1

/-- Each well-formed instruction's encoding lies in its own row. -/
def FitsRow.Statement (i : Instr) : Prop :=
  i.wellFormed = true → ∀ fc, FitsRow.fits (FitsRow.row i) (encode fc i)

/-- The lower byte of a key is the command code, under the mask 0x00FF. -/
theorem FitsRow.code_under_mask (fc code : Byte) :
    makeKey fc code &&& 0x00FF#16 = code.setWidth 16 := by
  apply BitVec.eq_of_getLsbD_eq
  intro j hj
  have hm : (0x00FF#16).getLsbD j = decide (j < 8) := by revert j; decide
  rw [BitVec.getLsbD_and, hm, makeKey, BitVec.getLsbD_append, BitVec.getLsbD_setWidth]
  by_cases h8 : j < 8
  · simp [h8, hj]
  · simp [h8, BitVec.getLsbD_of_ge code j (by omega)]

theorem FitsRow.crcInit : FitsRow.Statement .crcInit := fun _ fc => FitsRow.code_under_mask fc 0x01#8

theorem FitsRow.crcUpdate : FitsRow.Statement .crcUpdate := fun _ fc => FitsRow.code_under_mask fc 0x02#8

theorem FitsRow.validate : FitsRow.Statement .validate := fun _ fc => FitsRow.code_under_mask fc 0x08#8

theorem FitsRow.buildMission : FitsRow.Statement .buildMission := fun _ _ => rfl

theorem FitsRow.buildLaunch : FitsRow.Statement .buildLaunch := fun _ _ => rfl

theorem FitsRow.buildReadTor : FitsRow.Statement .buildReadTor := fun _ _ => rfl

/-- Bit 17 of a transaction word is its write bit. -/
theorem FitsRow.write_bit (b : Bool) (a : Addr) (d : Byte) (j : Nat) :
    (makeHt b a d).getLsbD j = if j < 8 then d.getLsbD j else if j < 17 then a.getLsbD (j - 8) else (decide (j = 17) && b) := by
  simp only [makeHt, BitVec.getLsbD_append, BitVec.getLsbD_ofBool]
  split
  · rfl
  · split
    · rw [if_pos (by omega)]
    · rw [if_neg (by omega)]
      congr 1
      simp only [decide_eq_decide]; omega

theorem FitsRow.wr (a : Addr) (d : Byte) : FitsRow.Statement (.wr a d) := by
  intro _ fc
  show makeHt true a d &&& 0x20000#18 = 0x20000#18
  apply BitVec.eq_of_getLsbD_eq
  intro j hj
  have hm : (0x20000#18).getLsbD j = decide (j = 17) := by revert j; decide
  rw [BitVec.getLsbD_and, hm, FitsRow.write_bit]
  by_cases h : j = 17
  · subst h; simp
  · simp [h]

theorem FitsRow.rd (a : Addr) (d : Byte) : FitsRow.Statement (.rd a d) := by
  intro hw fc
  have hd : d = 0#8 := by simpa [Instr.wellFormed] using hw
  subst hd
  show makeHt false a 0#8 &&& 0x200FF#18 = 0x00000#18
  apply BitVec.eq_of_getLsbD_eq
  intro j hj
  have hm : (0x200FF#18).getLsbD j = (decide (j < 8) || decide (j = 17)) := by revert j; decide
  rw [BitVec.getLsbD_and, hm, FitsRow.write_bit]
  by_cases h8 : j < 8
  · simp [h8]
  · by_cases h17 : j = 17
    · subst h17; simp
    · simp [h8, h17]

end Sys2Proof.Laws
end

