-- ==== Sys2Proof/Laws/Decode.lean ====
section
/-! SUPPORT. The fields of what `makeHt` and `makeKey` put together (spec 30_encoding R51, R53), and a step by what its
transaction does. -/

namespace Sys2Proof

theorem keyCode_makeKey (fc code : Byte) : keyCode (makeKey fc code) = code := by
  apply BitVec.eq_of_getLsbD_eq
  intro j hj
  rw [keyCode, BitVec.getLsbD_extractLsb', makeKey, BitVec.getLsbD_append]
  simp [hj]

theorem keyFc_makeKey (fc code : Byte) : keyFc (makeKey fc code) = fc := by
  apply BitVec.eq_of_getLsbD_eq
  intro j hj
  rw [keyFc, BitVec.getLsbD_extractLsb', makeKey, BitVec.getLsbD_append]
  simp [hj]

theorem makeKey_fields (k : Key) : makeKey (keyFc k) (keyCode k) = k := by
  apply BitVec.eq_of_getLsbD_eq
  intro j hj
  rw [makeKey, BitVec.getLsbD_append, keyFc, keyCode, BitVec.getLsbD_extractLsb', BitVec.getLsbD_extractLsb']
  by_cases h8 : j < 8
  · simp [h8]
  · simp [h8, show 8 + (j - 8) = j by omega, show j - 8 < 8 by omega]

theorem htWrite_makeHt (b : Bool) (a : Addr) (d : Byte) : htWrite (makeHt b a d) = b := by
  rw [htWrite, Laws.FitsRow.write_bit]
  rfl

theorem htAddr_makeHt (b : Bool) (a : Addr) (d : Byte) : htAddr (makeHt b a d) = a := by
  apply BitVec.eq_of_getLsbD_eq
  intro j hj
  rw [htAddr, BitVec.getLsbD_extractLsb', Laws.FitsRow.write_bit, if_neg (by omega), if_pos (by omega),
    show 8 + j - 8 = j by omega]
  simp [hj]

theorem htData_makeHt (b : Bool) (a : Addr) (d : Byte) : htData (makeHt b a d) = d := by
  apply BitVec.eq_of_getLsbD_eq
  intro j hj
  rw [htData, BitVec.getLsbD_extractLsb', Laws.FitsRow.write_bit, if_pos (by omega)]
  simp [hj]

theorem makeHt_fields (w : HTWord) : makeHt (htWrite w) (htAddr w) (htData w) = w := by
  apply BitVec.eq_of_getLsbD_eq
  intro j hj
  rw [Laws.FitsRow.write_bit, htWrite, htAddr, htData, BitVec.getLsbD_extractLsb', BitVec.getLsbD_extractLsb']
  by_cases h8 : j < 8
  · simp [h8]
  · by_cases h17 : j < 17
    · simp [h8, h17, show 8 + (j - 8) = j by omega, show j - 8 < 9 by omega]
    · have : j = 17 := by omega
      subst this
      rfl

/-- A write transaction decodes to a WR of its own address and data (30_encoding R51). -/
theorem decode_makeHt_write (a : Addr) (d : Byte) : decode (.ht (makeHt true a d)) = .ok (.wr a d) := by
  simp [decode, decodeHt, htWrite_makeHt, htAddr_makeHt, htData_makeHt]

/-- A read transaction with data 0 decodes to an RD of its own address (30_encoding R51). -/
theorem decode_makeHt_read (a : Addr) : decode (.ht (makeHt false a 0#8)) = .ok (.rd a 0#8) := by
  simp [decode, decodeHt, htWrite_makeHt, htAddr_makeHt, htData_makeHt]

/-- The register at an address has that address (20_memory R31). -/
theorem addrOf_of_regOf : ∀ (a : Addr) (r : RegName), regOf a = some r → addrOf r = a := by
  decide +kernel

namespace Machine

/-- A step that runs a transaction, by what the transaction does. Every whole-machine rule is a case split on this and
`step_idle`, `step_reset`: a command, a store, a read that returns a value, or a refusal. -/
theorem step_access_cases {s t : State} {w : HTWord} {rest : List HostEvent} (hp : s.pending = .access w :: rest)
    (h : step s = .next t) :
    (∃ d, w = makeHt true 0x000#9 d ∧ runCommand d s.popEvent = .next t) ∨
      (∃ a d r, w = makeHt true a d ∧ regOf a = some r ∧ r ≠ .cmd ∧ s.popEvent.storeReg r d = some t) ∨
      (∃ a r b, w = makeHt false a 0#8 ∧ regOf a = some r ∧ s.popEvent.loadReg r = some b ∧ t = s.popEvent.pushRead b) ∨
      t = s.popEvent.markRefused := by
  rcases decodeHt_cases w with ⟨hw, hd⟩ | ⟨hw, hz, hd⟩ | ⟨_, _, hd⟩
  · rw [step_access hp hd] at h
    rcases execWr_cases h with ⟨hr, hc⟩ | ⟨r, hr, hne, hs⟩ | ⟨_, _, ht⟩
    · have ha : htAddr w = 0x000#9 := (addrOf_of_regOf _ _ hr).symm
      exact .inl ⟨htData w, by rw [← ha, ← hw, makeHt_fields], hc⟩
    · exact .inr (.inl ⟨htAddr w, htData w, r, by rw [← hw, makeHt_fields], hr, hne, hs⟩)
    · exact .inr (.inr (.inr ht))
  · rw [step_access hp hd] at h
    rcases execRd_cases h with ⟨_, r, b, hr, hb, ht⟩ | ⟨_, ht⟩
    · exact .inr (.inr (.inl ⟨htAddr w, r, b, by rw [← hw, ← hz, makeHt_fields], hr, hb, ht⟩))
    · exact .inr (.inr (.inr ht))
  · rw [step_rejected hp hd] at h
    exact .inr (.inr (.inr (by simpa using h.symm)))

end Machine

end Sys2Proof
end

