-- ==== Sys2Proof/Tests/Slice0.lean ====
section
/-! SUPPORT. Small checks with expected results from spec 95_test_vectors and the tables of the rules, and, for each
statement with hypotheses, a witness that meets them. -/

namespace Sys2Proof.Tests

open Sys2Proof Sys2Proof.Machine

/-- A property of the next state, false of a stop. -/
def after (o : Host.Outcome State Fault Refusal) (p : State → Bool) : Bool :=
  match o with
  | .next t => p t
  | .fault _ => false
  | .refused _ => false

/-- The legal mission operands of 95_test_vectors V-BLD-F, "mission base". -/
def missionBase : State :=
  { State.reset with fc := 0x10#8, addr := 1#8, opcnt := 1#8, nops := 1#8, work0 := 0#8, station0 := 1#8 }

/-- The operands of the source's mission example, 95_test_vectors E6. -/
def missionE6 : State :=
  { State.reset with
    fc := 0x10#8, addr := 1#8, opcnt := 2#8, nops := 2#8, work0 := 1#8, station0 := 10#8, work1 := 2#8, station1 := 20#8 }

/-- A receive buffer that holds the given bytes. -/
def withResponse (r : List Byte) : State :=
  { State.reset with rxbuf := Memory.writeAll [] 0 r, rxlen := BitVec.ofNat 9 r.length }

/-- The receive buffer full of one byte. -/
def fullResponse : State :=
  withResponse (List.replicate 256 0xFF#8)

/-- RXLEN is 3, and nothing has written RXBUF1 (70_reset R135). -/
def holedResponse : State :=
  { State.reset with rxbuf := [(0, 0x00#8), (2, 0x41#8)], rxlen := 3#9 }

/-! WellFormed: an ill-formed term for its one check (30_encoding R51) -/

theorem test_wellFormed_refuses_read_data : (Instr.rd 0x001#9 0x01#8).wellFormed = false := by decide

theorem test_wellFormed_accepts_read : (Instr.rd 0x001#9 0x00#8).wellFormed = true := by decide

/-! Decoding: words written out bit by bit from 30_encoding R51 and R53, one a constructor -/

theorem test_decode_crcInit : decode (.key 0b0101101000000001#16) = .ok .crcInit := by decide

theorem test_decode_crcUpdate : decode (.key 0b0001000000000010#16) = .ok .crcUpdate := by decide

theorem test_decode_validate : decode (.key 0b0000010100001000#16) = .ok .validate := by decide

theorem test_decode_buildMission : decode (.key 0b0001000000000100#16) = .ok .buildMission := by decide

theorem test_decode_buildLaunch : decode (.key 0b0000010100000100#16) = .ok .buildLaunch := by decide

theorem test_decode_buildReadTor : decode (.key 0b0000001000000100#16) = .ok .buildReadTor := by decide

/-- `WR ADDR, 0xC8` is 0x206C8 (95_test_vectors section 5). -/
theorem test_decode_wr : decode (.ht 0b100000011011001000#18) = .ok (.wr 0x006#9 0xC8#8) := by decide

/-- `RD TXBUF8` is 0x02800 (95_test_vectors section 5). -/
theorem test_decode_rd : decode (.ht 0b000010100000000000#18) = .ok (.rd 0x028#9 0x00#8) := by decide

/-- FC = 0x90 with BUILD (95_test_vectors V-BLD-F). -/
theorem test_decode_unsupported_fc : decode (.key 0x9004#16) = .error .unsupportedFc := by decide

theorem test_decode_illegal_codes :
    decode (.key 0x1000#16) = .error .illegalCode ∧ decode (.key 0x1003#16) = .error .illegalCode ∧
      decode (.key 0x10FF#16) = .error .illegalCode := by decide

/-- Read word 0x00101 (95_test_vectors section 5). -/
theorem test_decode_read_data : decode (.ht 0x00101#18) = .error .readDataNonzero := by decide

/-- The key table's rows have disjoint words: no key fits two of them (30_encoding R53). -/
theorem test_key_rows_disjoint :
    keyTable.Pairwise (fun r q => (r.pattern ^^^ q.pattern) &&& r.mask &&& q.mask ≠ 0#16) := by decide

theorem test_decodeTableWord :
    decodeTableWord 16 0x1004 = some .buildMission ∧ decodeTableWord 24 0x20601 = some (.wr 0x006#9 0x01#8) ∧
      decodeTableWord 24 0x00100 = some (.rd 0x001#9 0x00#8) ∧ decodeTableWord 24 0x00101 = none ∧
      decodeTableWord 16 0x0304 = none ∧ decodeTableWord 24 0x40000 = none := by decide

/-- The assembler's words of program P1 (95_test_vectors section 6). -/
theorem test_assembler_words :
    Asm.cmd .crcInit = [0x20001#18] ∧ Asm.crcb [0xFF#8] = [0x204FF#18, 0x20002#18] ∧ Asm.rd .crcHi = 0x00300#18 ∧
      Asm.wr (.rxbuf 10#8) 0x0B#8 = 0x30A0B#18 ∧ Asm.rd (.txbuf 7) = 0x02700#18 := by decide

/-! The CRC16 engine (95_test_vectors V-CRC-B, V-CRC-S, V-CRC, V-CRC-CMD) -/

theorem test_crcBit : crcBit 0xFFFF#16 = 0xDFFE#16 ∧ crcBit 0x8000#16 = 0x4000#16 := by decide

theorem test_crcStep8 : crcStep8 0x1234#16 0x56#8 = 0xE993#16 := by decide

/-- V-CRC-9: the nine digits. -/
theorem test_crc16_digits :
    crc16 [0x31#8, 0x32#8, 0x33#8, 0x34#8, 0x35#8, 0x36#8, 0x37#8, 0x38#8, 0x39#8] = 0x4B37#16 := by decide +kernel

theorem test_crcInit : after (exec .crcInit { State.reset with crc := 0x807E#16 }) (fun t => t.crc == 0xFFFF#16) = true := by
  decide

theorem test_crcUpdate :
    after (exec .crcUpdate { State.reset with crc := 0x807E#16, din := 0x01#8 }) (fun t => t.crc == 0xE0C1#16 && t.din == 1#8)
      = true := by decide

/-! The frame encoder (95_test_vectors E6, V-BLD-M, V-BLD-L, V-BLD-T, V-BLD-F) -/

theorem test_buildMission_e6 :
    after (exec .buildMission missionE6) (fun t => t.txFrame ==
      [0x01#8, 0x10#8, 0x00#8, 0x13#8, 0x00#8, 0x03#8, 0x06#8, 0x00#8, 0x02#8, 0x01#8, 0x0A#8, 0x02#8, 0x14#8, 0x4E#8, 0x4B#8])
      = true := by decide +kernel

/-- Slot 1 is checked when NOPS is 2: ops (1,1), (2,0) fault. -/
theorem test_buildMission_slot1 :
    after (exec .buildMission { missionE6 with station1 := 0#8 })
      (fun t => t.statusByte == 0x08#8 && t.txlen == 0#8) = true := by decide

theorem test_buildLaunch :
    after (exec .buildLaunch { State.reset with addr := 3#8 })
      (fun t => t.txFrame == [0x03#8, 0x05#8, 0x01#8, 0x0F#8, 0xFF#8, 0x00#8, 0xBC#8, 0x27#8]) = true := by decide +kernel

theorem test_buildLaunch_range :
    after (exec .buildLaunch { State.reset with addr := 5#8 }) (fun t => t.statusByte == 0x08#8 && t.txlen == 0#8) = true := by
  decide

theorem test_buildReadTor :
    after (exec .buildReadTor { State.reset with addr := 3#8 })
      (fun t => t.txFrame == [0x03#8, 0x02#8, 0x01#8, 0x0F#8, 0x00#8, 0x11#8, 0x88#8, 0x1B#8]) = true := by decide +kernel

theorem test_buildReadTor_range :
    after (exec .buildReadTor { State.reset with addr := 255#8 }) (fun t => t.statusByte == 0x08#8) = true := by decide

/-- FC = 0x07 and ADDR = 9: ERR_FUNC only. -/
theorem test_build_func_before_range :
    after (exec (.wr 0x000#9 0x04#8) { State.reset with fc := 0x07#8, addr := 9#8 }) (fun t => t.statusByte == 0x04#8)
      = true := by decide

/-! The validator (95_test_vectors V-VAL) -/

theorem test_validate_shortest : after (exec .validate (withResponse [0x00#8, 0xBF#8, 0x40#8])) (fun t => t.valid) = true := by
  decide

/-- The source's "historical" bytes do not validate (90_conflicts C1). -/
theorem test_validate_historical :
    after (exec .validate (withResponse [0x01#8, 0x05#8, 0x01#8, 0x0F#8, 0xFF#8, 0x00#8, 0x8C#8, 0x3A#8]))
      (fun t => !t.valid) = true := by decide +kernel

/-! Host access (95_test_vectors section 5) -/

/-- `WR RXLEN_HI, 0xFF` gives RXLEN = 0x100. -/
theorem test_wr_rxlenHi : after (exec (.wr 0x011#9 0xFF#8) State.reset) (fun t => t.rxlen == 0x100#9) = true := by decide

/-- `WR TXBUF0, 0x01` is refused. -/
theorem test_wr_refused : after (exec (.wr 0x020#9 0x01#8) State.reset) (fun t => t.refused) = true := by decide

/-- `RD CRC_HI` after reset returns 0xFF. -/
theorem test_rd_crcHi : after (exec (.rd 0x003#9 0x00#8) State.reset) (fun t => t.reads == [0xFF#8]) = true := by decide

/-- `RD @0x031` is refused. -/
theorem test_rd_refused : after (exec (.rd 0x031#9 0x00#8) State.reset) (fun t => t.refused && t.reads == []) = true := by
  decide

/-! One step from reset with an instruction placed (log 8) -/

theorem test_step_placed_key :
    after (step (State.reset.withFetchWord 16 0x1004)) (fun t => t.errRange && !t.errFunc && t.pending == []) = true := by
  decide

theorem test_step_placed_word :
    after (step (State.reset.withFetchWord 24 0x20603)) (fun t => t.addr == 0x03#8 && t.pending == []) = true := by decide

/-! ## Witnesses: each statement's hypotheses are met together -/

theorem witness_DecodeOfEncodeIsTheInstruction : (Instr.rd 0x1FF#9 0x00#8).wellFormed = true := by decide

theorem witness_EncodeOfDecodeIsTheSameBits :
    decode (.key 0xFF08#16) = .ok .validate ∧ decode (.ht 0x3FFFF#18) = .ok (.wr 0x1FF#9 0xFF#8) := by decide

theorem witness_TransactionWordFields_write : (0x3FFFF#18).toNat / 2 ^ 17 = 1 ∧ (0x20000#18).toNat / 2 ^ 17 = 1 := by decide

theorem witness_TransactionWordFields_read :
    (0x1FF00#18).toNat / 2 ^ 17 = 0 ∧ (0x1FF00#18).toNat % 2 ^ 8 = 0 := by decide

theorem witness_TransactionWordFields_reserved :
    (0x1FFFF#18).toNat / 2 ^ 17 = 0 ∧ (0x1FFFF#18).toNat % 2 ^ 8 ≠ 0 ∧
      (State.reset.withNextEvent (.access 0x1FFFF#18)).pending = .access 0x1FFFF#18 :: [] := by decide

theorem witness_StreamedCrcEqualsTheSequenceCrc :
    (State.reset.issue (Asm.cmd .crcInit ++ Asm.crcb [0x01#8, 0x05#8])).pending =
      (Asm.cmd .crcInit ++ Asm.crcb [0x01#8, 0x05#8]).map .access ++ [] := by decide

theorem witness_CrcBitShiftsAndXorsThePolynomial : (0xFFFF#16).toNat % 2 = 1 ∧ (0xFFFE#16).toNat % 2 = 0 := by decide

theorem witness_CrcResidueOfAFrameIsZero : 3 ≤ [0x00#8, 0xBF#8, 0x40#8].length := by decide

theorem witness_SingleBitErrorsAreDetected :
    validate [0x00#8, 0xBF#8, 0x40#8] = true ∧ 2 < [0x00#8, 0xBF#8, 0x40#8].length ∧ 7 < 8 := by decide

/-- Both ends of every range. -/
theorem witness_BuildMissionWritesTheMissionFrame_ok :
    Claims.MissionInRange missionBase ∧
      Claims.MissionInRange { missionBase with
        addr := 4#8, opcnt := 3#8, nops := 3#8, work0 := 2#8, station0 := 255#8, work1 := 1#8, station1 := 128#8,
        work2 := 0#8, station2 := 1#8 } := by decide

theorem witness_BuildMissionWritesTheMissionFrame_fault :
    ¬ Claims.MissionInRange { missionBase with nops := 4#8 } ∧ ¬ Claims.MissionInRange { missionBase with opcnt := 0#8 } := by
  decide

theorem witness_BuildLaunchWritesTheLaunchFrame :
    Claims.AddrInRange { State.reset with addr := 1#8 } ∧ Claims.AddrInRange { State.reset with addr := 4#8 } ∧
      ¬ Claims.AddrInRange State.reset ∧ ¬ Claims.AddrInRange { State.reset with addr := 5#8 } := by decide

theorem witness_BuildReadTorWritesTheReadFrame :
    Claims.AddrInRange { State.reset with addr := 4#8 } ∧ ¬ Claims.AddrInRange { State.reset with addr := 255#8 } := by decide

theorem witness_BuildDispatchesOnTheFunctionCode :
    missionBase.fc = 0x10#8 ∧ { State.reset with fc := 0x05#8 }.fc = 0x05#8 ∧ { State.reset with fc := 0x02#8 }.fc = 0x02#8 ∧
      State.reset.fc ≠ 0x10#8 ∧ State.reset.fc ≠ 0x05#8 ∧ State.reset.fc ≠ 0x02#8 ∧
      after (exec (.wr 0x000#9 0x04#8) missionBase) (fun _ => true) = true := by decide

theorem witness_BuiltFramesValidate :
    ∃ t, exec (.wr 0x000#9 0x04#8) missionBase = .next t ∧ t.txlen ≠ 0x00#8 := ⟨_, rfl, by decide⟩

theorem witness_BuildDependsOnItsOperandsAlone :
    let u := { missionBase with crc := 0x1234#16, work1 := 9#8, valid := true }
    missionBase.fc = u.fc ∧ missionBase.addr = u.addr ∧
      (missionBase.fc = 0x10#8 → missionBase.opcnt = u.opcnt ∧ missionBase.nops = u.nops ∧
        (0 < missionBase.nops.toNat → missionBase.work0 = u.work0 ∧ missionBase.station0 = u.station0) ∧
        (1 < missionBase.nops.toNat → missionBase.work1 = u.work1 ∧ missionBase.station1 = u.station1) ∧
        (2 < missionBase.nops.toNat → missionBase.work2 = u.work2 ∧ missionBase.station2 = u.station2)) ∧
      (∃ t, exec (.wr 0x000#9 0x04#8) missionBase = .next t) ∧ ∃ v, exec (.wr 0x000#9 0x04#8) u = .next v :=
  ⟨by decide, by decide, by decide, ⟨_, rfl⟩, ⟨_, rfl⟩⟩

theorem witness_ValidateTestsLengthAndLittleEndianCrc : [0x00#8, 0x01#8].length < 3 ∧ [0x00#8] ≠ [] := by decide

/-- A known full buffer, a known short one that nothing wrote, an unknown one with a hole at index 1, and one too long. -/
theorem witness_ValidateCommandSetsValidFromRxbuf :
    (fullResponse.rxlen.toNat = 256 ∧ Claims.ResponseKnown fullResponse) ∧
      Claims.ResponseKnown { State.reset with rxlen := 2#9 } ∧
      (holedResponse.rxlen.toNat ≤ 256 ∧ ¬ Claims.ResponseKnown holedResponse) ∧
      256 < { State.reset with rxlen := 257#9 }.rxlen.toNat :=
  ⟨⟨by decide +kernel, .inr (by decide +kernel)⟩, by decide, ⟨by decide, by decide⟩, by decide⟩

theorem witness_ValidEqualsZeroResidue :
    let s := withResponse [0x00#8, 0xBF#8, 0x40#8]
    3 ≤ s.rxlen.toNat ∧ s.rxlen.toNat ≤ 256 ∧ Claims.ResponseKnown s ∧ ∃ t, exec .validate s = .next t :=
  ⟨by decide, by decide, by decide, ⟨_, rfl⟩⟩

theorem witness_ValidateReadsBelowRxlenAlone :
    let s := withResponse [0x00#8, 0xBF#8, 0x40#8]
    let u := { s with rxbuf := s.rxbuf.write 3 0xAA#8, errFunc := true }
    s.rxlen = u.rxlen ∧ (s.rxlen.toNat ≤ 256 → Claims.ResponseKnown s ∧ Claims.ResponseKnown u) ∧
      (∀ i, i < s.rxlen.toNat → s.rxByte i = u.rxByte i) ∧ (∃ t, exec .validate s = .next t) ∧
      ∃ v, exec .validate u = .next v :=
  ⟨by decide, by decide, by decide, ⟨_, rfl⟩, ⟨_, rfl⟩⟩

theorem witness_LoadrxThenValidateJudgesTheReply :
    [0x00#8, 0xBF#8, 0x40#8].length ≤ 256 ∧
      (State.reset.issue (Asm.loadrx [0x00#8, 0xBF#8, 0x40#8] ++ Asm.cmd .validate)).pending =
        (Asm.loadrx [0x00#8, 0xBF#8, 0x40#8] ++ Asm.cmd .validate).map .access ++ [] := by decide

theorem witness_LoopedBackFramesAlwaysValidate :
    let frame : List Byte := [0x01#8, 0x05#8, 0x01#8, 0x0F#8, 0xFF#8, 0x00#8, 0xBD#8, 0xC5#8]
    let s := State.issue { State.reset with fc := 0x05#8, addr := 1#8 } (Asm.loadrx frame ++ Asm.cmd .validate)
    ∃ t, exec (.wr 0x000#9 0x04#8) s = .next t ∧ t.txlen ≠ 0x00#8 ∧
      t.pending = (Asm.loadrx (Claims.frameRead t) ++ Asm.cmd .validate).map .access ++ [] :=
  ⟨_, rfl, by decide +kernel, by decide +kernel⟩

theorem witness_CheckPhaseReportsTheReplyClass :
    [0x00#8] ≠ [] ∧ [0x00#8].length ≤ 256 ∧
      (State.reset.issue (Asm.checkPhase [0x00#8])).pending = (Asm.checkPhase [0x00#8]).map .access ++ [] := by decide

theorem witness_RdtxReadsOutTheFrame :
    let s := State.issue { State.reset with txlen := 17#8 } (Asm.rdtx 17#8)
    s.txlen.toNat ≤ 17 ∧ s.pending = (Asm.rdtx s.txlen).map .access ++ [] := by decide

theorem witness_WriteActsByAddress :
    255 < 256 ∧ Claims.NotWritable 0x001#9 ∧ Claims.NotWritable 0x00F#9 ∧ Claims.NotWritable 0x012#9 ∧
      Claims.NotWritable 0x0FF#9 ∧ ¬ Claims.NotWritable 0x011#9 ∧ ¬ Claims.NotWritable 0x100#9 := by decide

theorem witness_ReadReturnsByAddress :
    16 < 17 ∧ 16 < { State.reset with txlen := 17#8 }.txlen.toNat ∧ State.reset.txlen.toNat ≤ 0 ∧ 255 < 256 ∧
      Claims.NotReadable 0x000#9 ∧ Claims.NotReadable 0x012#9 ∧ Claims.NotReadable 0x01F#9 ∧ Claims.NotReadable 0x031#9 ∧
      Claims.NotReadable 0x0FF#9 ∧ ¬ Claims.NotReadable 0x011#9 ∧ ¬ Claims.NotReadable 0x030#9 ∧ 0xFF#8 ≠ 0x00#8 := by decide

/-- A write of STATUS, a read of CMD and a read with data, each as the next transaction. -/
theorem witness_RefusedIsSet_access :
    (htWrite 0x20100#18 = true ∧ Claims.NotWritable (htAddr 0x20100#18)) ∧
      (htWrite 0x00000#18 = false ∧ Claims.NotReadable (htAddr 0x00000#18)) ∧
      (htWrite 0x00101#18 = false ∧ htData 0x00101#18 ≠ 0x00#8) ∧
      (State.reset.withNextEvent (.access 0x20100#18)).pending = .access 0x20100#18 :: [] := by decide

theorem witness_RefusedIsSet_kept :
    ∃ t, step { State.reset with refused := true } = .next t ∧ { State.reset with refused := true }.refused = true :=
  ⟨_, rfl, rfl⟩

theorem witness_RefusedIsSet_set :
    ∃ t, step (State.reset.withNextEvent (.access 0x00000#18)) = .next t ∧
      (State.reset.withNextEvent (.access 0x00000#18)).refused = false ∧ t.refused = true :=
  ⟨_, rfl, rfl, rfl⟩

theorem witness_ReadsHaveNoSideEffectAndRepeat :
    ∃ t u, exec (.rd 0x020#9 0x00#8) State.reset = .next t ∧ exec (.rd 0x020#9 0x00#8) t = .next u :=
  ⟨_, _, rfl, rfl⟩

theorem witness_WrittenRegistersReadBackAndOthersStay :
    Claims.ReadWrite .rxlenHi ∧ Claims.ReadWrite .din ∧ Claims.ReadWrite (.rxbuf 255#8) := by
  refine ⟨?_, ?_, ?_⟩ <;> refine ⟨by decide, by decide, by decide, by decide, by decide, fun i => by simp⟩

theorem witness_AtMostOneFaultPerTransaction :
    (∃ t, exec (.wr 0x000#9 0x00#8) State.reset = .next t ∧ t.faultBit .errIllegal ≠ State.reset.faultBit .errIllegal) ∧
      (∃ t, exec (.rd 0x000#9 0x00#8) State.reset = .next t ∧ t.refused ≠ State.reset.refused) ∧
      (0x03#8 ≠ 0x01#8 ∧ 0x03#8 ≠ 0x02#8 ∧ 0x03#8 ≠ 0x04#8 ∧ 0x03#8 ≠ 0x08#8) ∧
      (State.reset.fc ≠ 0x10#8 ∧ State.reset.fc ≠ 0x05#8 ∧ State.reset.fc ≠ 0x02#8 ∧ ¬ Claims.AddrInRange State.reset) :=
  ⟨⟨_, rfl, by decide⟩, ⟨_, rfl, by decide⟩, by decide, by decide⟩

theorem witness_OnlyResetClearsFaultBits :
    let s := State.withNextEvent { State.reset with errFunc := true } .reset
    ∃ t, step s = .next t ∧ s.faultBit .errFunc = true ∧ t.faultBit .errFunc = false ∧ Claims.nextEvent s = some .reset :=
  ⟨_, rfl, by decide, by decide, by decide⟩

theorem witness_OnlyResetClearsFaultBits_validate :
    (∃ t, exec .validate State.reset = .next t) ∧ Claims.ResponseKnown State.reset ∧
      256 < { State.reset with rxlen := 257#9 }.rxlen.toNat := ⟨⟨_, rfl⟩, by decide, by decide⟩

theorem witness_AGoodEndMeansAGoodRun :
    let s := State.reset.issue [0x20601#18, 0x20505#18]
    (∀ e ∈ s.pending, e ≠ HostEvent.reset) ∧
      ∃ t u, Host.Core.run Sys2Proof.core 1 s = .next t ∧ Host.Core.run Sys2Proof.core 1 t = .next u ∧
        State.good [.errFunc] u = true :=
  ⟨by decide, _, _, rfl, rfl, by decide⟩

theorem witness_FaultBitsDoNotChangeCommands : ∃ t, exec (.wr 0x000#9 0x02#8) State.reset = .next t := ⟨_, rfl⟩

theorem witness_StepRunsTheDecodedTransaction :
    (State.reset.withNextEvent (.access 0x20601#18)).pending = .access 0x20601#18 :: [] ∧
      decode (.ht 0x20601#18) = .ok (.wr 0x006#9 0x01#8) := by decide

theorem witness_StepRunsTheCommandOfTheDecodeKey :
    (State.withNextEvent missionBase (.access (makeHt true 0x000#9 0x04#8))).pending =
        .access (makeHt true 0x000#9 0x04#8) :: [] ∧
      decode (.key (makeKey missionBase.fc 0x04#8)) = .ok .buildMission := by decide

theorem witness_StepWaitsWhenNothingIsPending : State.reset.pending = [] := by decide

theorem witness_ResetEventSetsEveryElement : (missionBase.withNextEvent .reset).pending = .reset :: [] := by decide

theorem witness_StateAfterReset : (0x02#8 : Byte) = 0x10#8 ∨ (0x02#8 : Byte) = 0x05#8 ∨ (0x02#8 : Byte) = 0x02#8 := by decide

theorem witness_StepKeepsTheStateInvariant :
    let s := State.withNextEvent missionBase (.access 0x20004#18)
    s.inv = true ∧ s.frameInv = true ∧ ∃ t, step s = .next t ∧ t.txlen ≠ 0x00#8 :=
  ⟨by decide, by decide, _, rfl, by decide⟩

/-- A state that holds a frame meets the frame invariant too: the launch frame of robot 1. -/
theorem witness_StepKeepsTheFrameInvariant :
    let frame : List Byte := [0x01#8, 0x05#8, 0x01#8, 0x0F#8, 0xFF#8, 0x00#8, 0xBD#8, 0xC5#8]
    let s := { State.reset with txbuf := Memory.writeAll [] 0 frame, txlen := 8#8, pending := [.access 0x20008#18] }
    s.frameInv = true ∧ ∃ t, step s = .next t :=
  ⟨by decide +kernel, _, rfl⟩

theorem witness_OnlyCrcCommandsAndResetWriteCrc :
    let s := State.reset.withNextEvent (.access 0x20002#18)
    ∃ t, step s = .next t ∧ t.crc ≠ s.crc := ⟨_, rfl, by decide⟩

theorem witness_OnlyHostWritesAndResetWriteOperands :
    let s := State.reset.withNextEvent (.access 0x20EFF#18)
    ∃ t, step s = .next t ∧ t.operandBytes ≠ s.operandBytes := ⟨_, rfl, by decide⟩

theorem witness_OnlyBuildAndResetWriteTheFrame :
    let s := State.withNextEvent missionBase (.access 0x20004#18)
    ∃ t, step s = .next t ∧ (t.txlen ≠ s.txlen ∨ ∃ i, t.txByte i ≠ s.txByte i) := ⟨_, rfl, .inl (by decide)⟩

theorem witness_OnlyValidateAndResetWriteValid :
    let s := State.withNextEvent (withResponse [0x00#8, 0xBF#8, 0x40#8]) (.access 0x20008#18)
    Claims.ResponseKnown s ∧ ∃ t, step s = .next t ∧ t.valid ≠ s.valid := ⟨by decide, _, rfl, by decide⟩

theorem witness_OnlyHostWritesAndResetWriteTheResponse :
    let s := State.reset.withNextEvent (.access 0x21010#18)
    ∃ t, step s = .next t ∧ (t.rxlen ≠ s.rxlen ∨ ∃ i, t.rxByte i ≠ s.rxByte i) := ⟨_, rfl, .inl (by decide)⟩

end Sys2Proof.Tests
end

section
/-! SUPPORT. What one step leaves in the state, as one inductive predicate with a case per kind of effect: the frame and
invariant statements are case splits on it. -/

namespace Sys2Proof.Machine

/-- The next state of a step, by what the step did to the elements of 10_state R10. A store names its register; what
happened to the queue, the mark REFUSED and the values read is not told apart. -/
inductive StepEffect (s : State) : State → Prop
  /-- An idle step, a read, a refusal or an illegal command code: no element but ERR_ILLEGAL changes. -/
  | quiet (pending : List HostEvent) (refused : Bool) (reads : List Byte) (errIllegal : Bool) :
      StepEffect s { s with pending := pending, refused := refused, reads := reads, errIllegal := errIllegal }
  | reset (hnext : Claims.nextEvent s = some .reset) : StepEffect s s.popEvent.applyReset
  | store (r : RegName) (d : Byte) {t : State} (hnext : Claims.nextEvent s = some (.access (makeHt true (addrOf r) d)))
      (hstore : s.popEvent.storeReg r d = some t) : StepEffect s t
  | crcInit (hnext : Claims.Issues s 0x01#8) : StepEffect s { s.popEvent with crc := Config.crcInit }
  | crcUpdate (hnext : Claims.Issues s 0x02#8) : StepEffect s { s.popEvent with crc := crcStep8 s.crc s.din }
  | emit (p : List Byte) (hnext : Claims.Issues s 0x04#8)
      (hlen : p.length = 6 ∨ p.length = 11 ∨ p.length = 13 ∨ p.length = 15) : StepEffect s (s.popEvent.emit p)
  | failBuild (k : FaultKind) (hnext : Claims.Issues s 0x04#8) : StepEffect s (s.popEvent.failBuild k)
  | setValid (valid errRange : Bool) (validDraws : Nat) (hnext : Claims.Issues s 0x08#8)
      (hexec : execValidate s.popEvent =
        .next { s.popEvent with valid := valid, errRange := errRange, validDraws := validDraws }) :
      StepEffect s { s.popEvent with valid := valid, errRange := errRange, validDraws := validDraws }

/-- VALIDATE writes VALID, ERR_RANGE and the model's count of unknown VALIDs alone (42_validator R91). -/
theorem execValidate_frame {s t : State} (h : execValidate s = .next t) :
    t = { s with valid := t.valid, errRange := t.errRange, validDraws := t.validDraws } := by
  rcases execValidate_cases h with ⟨_, rfl⟩ | ⟨_, _, rfl⟩ | ⟨_, _, rfl⟩ <;> rfl

/-- A command issued by the next event has one of the effects. -/
theorem stepEffect_of_runCommand {s t : State} {code : Byte} (hnext : Claims.Issues s code)
    (h : runCommand code s.popEvent = .next t) : StepEffect s t := by
  rcases runCommand_cases h with ⟨rfl, rfl⟩ | ⟨rfl, rfl⟩ | ⟨rfl, hbuild⟩ | ⟨rfl, hval⟩ | ⟨_, _, _, _, rfl⟩
  · exact .crcInit hnext
  · exact .crcUpdate hnext
  · rcases runBuild_effect hbuild with ⟨p, rfl, hlen⟩ | ⟨k, rfl⟩
    · exact .emit p hnext hlen
    · exact .failBuild k hnext
  · have ht := execValidate_frame hval
    rw [ht] at hval ⊢
    exact .setValid _ _ _ hnext hval
  · exact .quiet s.pending.tail s.refused s.reads true

/-- Every step has one of the effects. -/
theorem stepEffect_of_step {s t : State} (h : step s = .next t) : StepEffect s t := by
  rcases step_cases h with ⟨_, rfl⟩ | ⟨rest, hp, rfl⟩ | ⟨w, rest, _, hp, _, _⟩ | ⟨w, rest, why, _, _, rfl⟩
  · exact .quiet t.pending t.refused t.reads t.errIllegal
  · exact .reset (by simp [Claims.nextEvent, hp])
  · have hhead : Claims.nextEvent s = some (.access w) := by simp [Claims.nextEvent, hp]
    rcases step_access_cases hp h with ⟨d, rfl, hcmd⟩ | ⟨a, d, r, rfl, hr, _, hstore⟩ | ⟨_, _, b, _, _, _, rfl⟩ | rfl
    · exact stepEffect_of_runCommand hhead hcmd
    · exact .store r d (by rw [hhead, addrOf_of_regOf a r hr]) hstore
    · exact .quiet s.pending.tail s.refused (s.reads ++ [b]) s.errIllegal
    · exact .quiet s.pending.tail true s.reads s.errIllegal
  · exact .quiet s.pending.tail true s.reads s.errIllegal

/-- RXBUF has the addresses from 0x100 on (20_memory R31). -/
theorem le_toNat_addrOf_rxbuf (i : Byte) : 0x100 ≤ (addrOf (.rxbuf i)).toNat := by
  have := i.isLt
  simp only [addrOf, BitVec.toNat_ofNat]
  omega

/-- A store reaches an operand register, one half of RXLEN or one byte of RXBUF, each with its own addresses
(20_memory R31). -/
theorem storeReg_cases {r : RegName} {d : Byte} {s t : State} (h : s.storeReg r d = some t) :
    ((0x004 ≤ (addrOf r).toNat ∧ (addrOf r).toNat ≤ 0x00E) ∧ t.rxbuf = s.rxbuf ∧ t.rxlen = s.rxlen) ∨
      ((addrOf r = 0x010#9 ∨ addrOf r = 0x011#9) ∧ ∃ l, t = { s with rxlen := l }) ∨
      (∃ i, r = .rxbuf i ∧ t = { s with rxbuf := s.rxbuf.write i.toNat d }) := by
  cases r with
  | rxlenLo => exact .inr (.inl ⟨.inl rfl, _, by simpa [State.storeReg] using h.symm⟩)
  | rxlenHi => exact .inr (.inl ⟨.inr rfl, _, by simpa [State.storeReg] using h.symm⟩)
  | rxbuf i => exact .inr (.inr ⟨i, rfl, by simpa [State.storeReg] using h.symm⟩)
  | cmd | status | crcLo | crcHi | txlen | txbuf i => simp [State.storeReg] at h
  | _ =>
    simp only [State.storeReg, Option.some.injEq] at h
    subst h
    exact .inl ⟨by decide, rfl, rfl⟩

end Sys2Proof.Machine
end

section
/-! SUPPORT. The state invariant and the frame invariant as facts about the fields they read, and that a frame followed
by its CRC validates. -/

namespace Sys2Proof.Machine

/-- The state invariant, part by part. -/
theorem State.inv_iff (s : State) : s.inv = true ↔
    s.txbuf.wf Config.txbufSize = true ∧ s.rxbuf.wf Config.rxbufSize = true ∧ s.txlen.toNat ∈ txLengths ∧
      ∀ i, i < s.txlen.toNat → (s.txbuf.read i).isSome = true := by
  simp [State.inv, and_assoc]

/-- The frame invariant, part by part. -/
theorem State.frameInv_iff (s : State) : s.frameInv = true ↔
    s.inv = true ∧ (s.txlen = 0#8 ∨ validate s.txFrame = true) := by
  simp [State.frameInv]

/-- The byte TXBUF holds depends on what was written and on the last reset's draws. -/
theorem State.txByte_congr {s t : State} (htx : t.txbuf = s.txbuf) (hres : t.resets = s.resets) (i : Nat) :
    t.txByte i = s.txByte i := by
  simp only [State.txByte, htx, hres]

/-- The byte RXBUF holds depends on what was written and on the last reset's draws. -/
theorem State.rxByte_congr {s t : State} (hrx : t.rxbuf = s.rxbuf) (hres : t.resets = s.resets) (i : Nat) :
    t.rxByte i = s.rxByte i := by
  simp only [State.rxByte, hrx, hres]

theorem State.txFrame_congr {s t : State} (htx : t.txbuf = s.txbuf) (hlen : t.txlen = s.txlen)
    (hres : t.resets = s.resets) : t.txFrame = s.txFrame := by
  simp only [State.txFrame, hlen, funext (State.txByte_congr htx hres)]

/-- After a platform reset the buffers list nothing and TXLEN is 0 (70_reset R130). -/
theorem State.inv_applyReset (s : State) : s.applyReset.inv = true := rfl

/-- No store reaches the request frame or the draws (20_memory R31). -/
theorem storeReg_keeps_frame {r : RegName} {d : Byte} {s t : State} (h : s.storeReg r d = some t) :
    t.txbuf = s.txbuf ∧ t.txlen = s.txlen ∧ t.resets = s.resets := by
  obtain ⟨_, htx, hlen, _, _, _, _, _, _, _, hres, _, _⟩ := storeReg_frame h
  exact ⟨htx, hlen, hres⟩

/-- A store keeps RXBUF in canonical form: its index is a byte. -/
theorem wf_rxbuf_of_storeReg {r : RegName} {d : Byte} {s t : State} (h : s.storeReg r d = some t)
    (hwf : s.rxbuf.wf Config.rxbufSize = true) : t.rxbuf.wf Config.rxbufSize = true := by
  rcases storeReg_cases h with ⟨_, hrx, _⟩ | ⟨_, l, rfl⟩ | ⟨i, _, rfl⟩
  · rwa [hrx]
  · exact hwf
  · exact Memory.wf_write Config.rxbufSize i.toNat d s.rxbuf i.isLt hwf

/-- A store keeps the state invariant. -/
theorem inv_of_storeReg {r : RegName} {d : Byte} {s t : State} (h : s.storeReg r d = some t) (hinv : s.inv = true) :
    t.inv = true := by
  obtain ⟨hwtx, hwrx, hmem, hread⟩ := s.inv_iff.mp hinv
  obtain ⟨htx, hlen, _⟩ := storeReg_keeps_frame h
  rw [State.inv_iff, htx, hlen]
  exact ⟨hwtx, wf_rxbuf_of_storeReg h hwrx, hmem, hread⟩

/-- TXLEN after a frame is emitted is the frame's length (41_frame_encoder R81). -/
theorem toNat_txlen_emit (s : State) (p : List Byte) (h : p.length + 2 < 256) :
    (s.emit p).txlen.toNat = p.length + 2 := by
  simp only [State.emit_txlen, length_withCrc, BitVec.toNat_ofNat]
  omega

/-- Emitting a payload of one of the four lengths keeps the state invariant. -/
theorem inv_emit {s : State} {p : List Byte} (hlen : p.length = 6 ∨ p.length = 11 ∨ p.length = 13 ∨ p.length = 15)
    (hinv : s.inv = true) : (s.emit p).inv = true := by
  obtain ⟨hwtx, hwrx, _, _⟩ := s.inv_iff.mp hinv
  rw [State.inv_iff, toNat_txlen_emit s p (by omega)]
  refine ⟨?_, hwrx, ?_, ?_⟩
  · have hfits : 0 + (withCrc p).length ≤ Config.txbufSize := by
      simp only [Config.txbufSize, length_withCrc]
      omega
    exact Memory.wf_writeAll Config.txbufSize 0 (withCrc p) s.txbuf hfits hwtx
  · simp only [txLengths, List.mem_cons, List.not_mem_nil, or_false]
    omega
  · intro i hi
    simp [Memory.read_writeAll, hi]

/-- A BUILD that faults keeps the state invariant: it leaves the buffers and sets TXLEN to 0. -/
theorem inv_failBuild {s : State} (k : FaultKind) (hinv : s.inv = true) : (s.failBuild k).inv = true := by
  obtain ⟨hwtx, hwrx, _, _⟩ := s.inv_iff.mp hinv
  simp [State.inv_iff, hwtx, hwrx, txLengths]

/-- A 16-bit value is its high byte shifted up and its low byte. -/
theorem highByte_shiftLeft_or_lowByte (v : U16) :
    ((highByte v).setWidth 16 <<< 8) ||| (lowByte v).setWidth 16 = v := by
  apply BitVec.eq_of_getLsbD_eq
  intro j hj
  simp only [highByte, lowByte, BitVec.getLsbD_or, BitVec.getLsbD_shiftLeft, BitVec.getLsbD_setWidth,
    BitVec.getLsbD_extractLsb']
  by_cases h8 : j < 8
  · simp [h8, hj]
  · simp [h8, hj, show j - 8 < 16 by omega, show j - 8 < 8 by omega, show 8 + (j - 8) = j by omega]

/-- 42_validator R90 on a sequence given as its payload and its last two bytes. -/
theorem validate_append_pair {p : List Byte} (hp : p ≠ []) (x y : Byte) :
    validate (p ++ [x, y]) = (crc16 p == ((y.setWidth 16 <<< 8) ||| x.setWidth 16)) := by
  have hpos := List.length_pos_iff.mpr hp
  have hlong : ¬ (p ++ [x, y]).length < 3 := by
    simp only [List.length_append, List.length_cons, List.length_nil]
    omega
  rw [validate, if_neg hlong]
  simp

/-- A payload followed by its CRC, low byte first, validates (42_validator R90, 30_encoding R62). -/
theorem validate_withCrc {p : List Byte} (hp : p ≠ []) : validate (withCrc p) = true := by
  rw [withCrc, littleEndian, validate_append_pair hp, highByte_shiftLeft_or_lowByte, beq_self_eq_true]

/-- Each effect of a step keeps the state invariant. -/
theorem StepEffect.inv {s t : State} (h : StepEffect s t) (hinv : s.inv = true) : t.inv = true := by
  have hpop : s.popEvent.inv = true := hinv
  cases h with
  | quiet | crcInit | crcUpdate | setValid => exact hinv
  | reset => exact State.inv_applyReset _
  | store r d _ hstore => exact inv_of_storeReg hstore hpop
  | emit p _ hlen => exact inv_emit hlen hpop
  | failBuild k => exact inv_failBuild k hpop

/-- Each effect of a step keeps that the frame validates: a BUILD leaves a payload with its CRC or no frame, the reset
leaves no frame, and nothing else touches TXBUF, TXLEN or the draws. -/
theorem StepEffect.frame_validates {s t : State} (h : StepEffect s t)
    (hframe : s.txlen = 0#8 ∨ validate s.txFrame = true) :
    t.txlen = 0#8 ∨ validate t.txFrame = true := by
  cases h with
  | quiet | crcInit | crcUpdate | setValid => exact hframe
  | reset => exact .inl rfl
  | store r d _ hstore =>
    obtain ⟨htx, hlen, hres⟩ := storeReg_keeps_frame hstore
    rwa [hlen, State.txFrame_congr htx hlen hres]
  | emit p _ hlen =>
    have hp : p ≠ [] := List.length_pos_iff.mp (by omega)
    rw [txFrame_emit _ p (by omega)]
    exact .inr (validate_withCrc hp)
  | failBuild k => exact .inl (State.failBuild_txlen _ k)

/-- Settles O46: a case split over what a step can leave. -/
theorem stepKeepsTheStateInvariant : Obligations.StepKeepsTheStateInvariant :=
  fun _ _ hinv hstep => (stepEffect_of_step hstep).inv hinv

/-- Settles O47: a frame that a BUILD leaves is a payload and its CRC, and nothing else writes one. -/
theorem stepKeepsTheFrameInvariant : Obligations.StepKeepsTheFrameInvariant := by
  intro s t hframe hstep
  obtain ⟨hinv, hvalid⟩ := s.frameInv_iff.mp hframe
  have heffect := stepEffect_of_step hstep
  exact t.frameInv_iff.mpr ⟨heffect.inv hinv, heffect.frame_validates hvalid⟩

/-- Settles O48: the buffers after reset list nothing and TXLEN is 0. -/
theorem resetMeetsTheInvariants : Obligations.ResetMeetsTheInvariants := by
  have hinv : State.reset.inv = true := by
    rw [State.inv_iff]
    exact ⟨Memory.wf_reset.1, Memory.wf_reset.2, by decide, fun i hi => absurd hi (Nat.not_lt_zero i)⟩
  exact ⟨hinv, (State.frameInv_iff _).mpr ⟨hinv, .inl rfl⟩⟩

end Sys2Proof.Machine
end

section
/-! SUPPORT. Which step may write which element: each statement is a case split over what a step can leave, where every
case but the named ones leaves the element as it was. -/

namespace Sys2Proof.Machine

/-- The operand registers after a BUILD that faults are those before it (41_frame_encoder R80). -/
theorem operandBytes_failBuild (s : State) (k : FaultKind) : (s.failBuild k).operandBytes = s.operandBytes := by
  simp [State.operandBytes]

/-- Settles O49: a store leaves CRC, and so does every command but the two of the CRC engine. -/
theorem onlyCrcCommandsAndResetWriteCrc : Obligations.OnlyCrcCommandsAndResetWriteCrc := by
  intro s t hstep hne
  cases stepEffect_of_step hstep with
  | crcInit hnext => exact .inl ⟨hnext, rfl⟩
  | crcUpdate hnext => exact .inr (.inl ⟨hnext, rfl⟩)
  | reset hnext => exact .inr (.inr ⟨hnext, rfl⟩)
  | store r d _ hstore =>
    obtain ⟨hcrc, _⟩ := storeReg_frame hstore
    exact absurd hcrc hne
  | failBuild k => exact absurd (State.failBuild_crc _ k) hne
  | quiet | emit | setValid => exact absurd rfl hne

/-- Settles O50: of the stores, one to RXLEN or RXBUF leaves the operands, and any other has an operand's address. -/
theorem onlyHostWritesAndResetWriteOperands : Obligations.OnlyHostWritesAndResetWriteOperands := by
  intro s t hstep hne
  cases stepEffect_of_step hstep with
  | reset hnext => exact .inl hnext
  | store r d hnext hstore =>
    rcases storeReg_cases hstore with ⟨haddr, _⟩ | ⟨_, _, rfl⟩ | ⟨_, _, rfl⟩
    · exact .inr ⟨addrOf r, d, hnext, haddr⟩
    · exact absurd rfl hne
    · exact absurd rfl hne
  | failBuild k => exact absurd (operandBytes_failBuild _ k) hne
  | quiet | crcInit | crcUpdate | emit | setValid => exact absurd rfl hne

/-- The frame buffer is as it was where TXLEN, the written bytes and the draws are. -/
theorem not_frame_changed {s t : State} (htx : t.txbuf = s.txbuf) (hlen : t.txlen = s.txlen)
    (hres : t.resets = s.resets) : ¬ (t.txlen ≠ s.txlen ∨ ∃ i, t.txByte i ≠ s.txByte i) := by
  rintro (h | ⟨i, h⟩)
  · exact h hlen
  · exact h (State.txByte_congr htx hres i)

/-- The response buffer is as it was where RXLEN, the written bytes and the draws are. -/
theorem not_response_changed {s t : State} (hrx : t.rxbuf = s.rxbuf) (hlen : t.rxlen = s.rxlen)
    (hres : t.resets = s.resets) : ¬ (t.rxlen ≠ s.rxlen ∨ ∃ i, t.rxByte i ≠ s.rxByte i) := by
  rintro (h | ⟨i, h⟩)
  · exact h hlen
  · exact h (State.rxByte_congr hrx hres i)

/-- Settles O51: every effect but a BUILD's and the reset's leaves TXBUF, TXLEN and the draws. -/
theorem onlyBuildAndResetWriteTheFrame : Obligations.OnlyBuildAndResetWriteTheFrame := by
  intro s t hstep hchanged
  cases stepEffect_of_step hstep with
  | reset hnext => exact .inl hnext
  | emit p hnext => exact .inr hnext
  | failBuild k hnext => exact .inr hnext
  | store r d _ hstore =>
    obtain ⟨htx, hlen, hres⟩ := storeReg_keeps_frame hstore
    exact absurd hchanged (not_frame_changed htx hlen hres)
  | quiet | crcInit | crcUpdate | setValid => exact absurd hchanged (not_frame_changed rfl rfl rfl)

/-- What VALIDATE leaves in VALID: 0 past the bound, and the validator's answer where the bytes are known
(42_validator R91). -/
theorem valid_of_execValidate {s t : State} (h : execValidate s = .next t) :
    (256 < s.rxlen.toNat → t.valid = false) ∧
      (s.rxlen.toNat ≤ 256 → Claims.ResponseKnown s → t.valid = validate s.rxFrame) := by
  rcases execValidate_cases h with ⟨hover, rfl⟩ | ⟨hle, _, rfl⟩ | ⟨hle, hunknown, rfl⟩
  · exact ⟨fun _ => rfl, fun hle => absurd hover (Nat.not_lt.mpr hle)⟩
  · exact ⟨fun hover => absurd hover (Nat.not_lt.mpr hle), fun _ _ => rfl⟩
  · refine ⟨fun hover => absurd hover (Nat.not_lt.mpr hle), fun _ hknown => ?_⟩
    rw [Claims.ResponseKnown, ← rxWritten_iff, ← responseKnown_iff] at hknown
    exact absurd hknown (by simp [hunknown])

/-- Settles O52: VALIDATE's effect carries the command it ran, and that says what VALID became. -/
theorem onlyValidateAndResetWriteValid : Obligations.OnlyValidateAndResetWriteValid := by
  intro s t hstep hne
  cases stepEffect_of_step hstep with
  | reset hnext => exact .inl ⟨hnext, rfl⟩
  | setValid v e n hnext hexec =>
    have hvalid := valid_of_execValidate hexec
    exact .inr ⟨hnext, hvalid⟩
  | store r d _ hstore =>
    obtain ⟨_, _, _, hvalid, _⟩ := storeReg_frame hstore
    exact absurd hvalid hne
  | failBuild k => exact absurd (State.failBuild_valid _ k) hne
  | quiet | crcInit | crcUpdate | emit => exact absurd rfl hne

/-- Settles O53: a store to an operand register leaves the response, and any other has an address of RXLEN or RXBUF. -/
theorem onlyHostWritesAndResetWriteTheResponse : Obligations.OnlyHostWritesAndResetWriteTheResponse := by
  intro s t hstep hchanged
  cases stepEffect_of_step hstep with
  | reset hnext => exact .inl hnext
  | store r d hnext hstore =>
    rcases storeReg_cases hstore with ⟨_, hrx, hlen⟩ | ⟨haddr, _⟩ | ⟨i, rfl, _⟩
    · obtain ⟨_, _, hres⟩ := storeReg_keeps_frame hstore
      exact absurd hchanged (not_response_changed hrx hlen hres)
    · exact .inr ⟨_, _, hnext, haddr.imp_right .inl⟩
    · exact .inr ⟨_, _, hnext, .inr (.inr (le_toNat_addrOf_rxbuf i))⟩
  | failBuild k =>
    exact absurd hchanged (not_response_changed (State.failBuild_rxbuf _ k) (State.failBuild_rxlen _ k)
      (State.failBuild_resets _ k))
  | quiet | crcInit | crcUpdate | emit | setValid => exact absurd hchanged (not_response_changed rfl rfl rfl)

end Sys2Proof.Machine
end

section
/-! SUPPORT. What a step runs, and the state after reset. -/

namespace Sys2Proof.Machine

/-- A state whose queue is known, with the next event taken off. -/
theorem popEvent_of_pending {s : State} {e : HostEvent} {rest : List HostEvent} (h : s.pending = e :: rest) :
    s.popEvent = { s with pending := rest } := by
  simp [State.popEvent, h]

/-- Settles O40: the decoded instruction runs at the state without the event. -/
theorem stepRunsTheDecodedTransaction : Obligations.StepRunsTheDecodedTransaction := by
  intro s w rest i hp hd
  rw [step_access hp hd, popEvent_of_pending hp]

/-- Settles O42: an empty queue is the idle step. -/
theorem stepWaitsWhenNothingIsPending : Obligations.StepWaitsWhenNothingIsPending :=
  fun _ hp => step_idle hp

/-- A write of CMD at its address runs the command of its code (43_host_access R100). -/
theorem exec_wr_cmd (code : Byte) (s : State) : exec (.wr 0x000#9 code) s = runCommand code s := rfl

/-- A write of 0x04 to CMD runs BUILD (43_host_access R102). -/
theorem runCommand_build (s : State) : runCommand 0x04#8 s = runBuild s := rfl

/-- A BUILD with an FC other than the three supported ones raises ERR_FUNC (41_frame_encoder R80). -/
theorem runBuild_of_unsupported {s : State} (h10 : s.fc ≠ 0x10#8) (h05 : s.fc ≠ 0x05#8) (h02 : s.fc ≠ 0x02#8) :
    runBuild s = .next (s.failBuild .errFunc) := by
  rw [runBuild, if_neg h10, if_neg h05, if_neg h02]

/-- A BUILD with a supported FC and ADDR out of range raises ERR_RANGE (41_frame_encoder R82). -/
theorem runBuild_of_addr_out_of_range {s : State} (hfc : s.fc = 0x10#8 ∨ s.fc = 0x05#8 ∨ s.fc = 0x02#8)
    (haddr : s.addrOk = false) : runBuild s = .next (s.failBuild .errRange) := by
  have hmission : s.missionOk = false := by simp [State.missionOk, haddr]
  rcases hfc with hfc | hfc | hfc
  · simp [runBuild, hfc, execBuildMission, hmission, buildFrame_fault]
  · simp [runBuild, hfc, execBuildLaunch, haddr, buildFrame_fault]
  · simp [runBuild, hfc, execBuildReadTor, haddr, buildFrame_fault]

/-- Settles O45: FC 0x00 is no supported FC, and ADDR 0x00 is out of range. -/
theorem stateAfterReset : Obligations.StateAfterReset := by
  refine ⟨rfl, by decide, rfl, rfl, rfl, ?_, rfl, fun _ => rfl, fun _ => rfl, ?_, ?_⟩
  · intro k
    cases k <;> rfl
  · rw [exec_wr_cmd, runCommand_build, runBuild_of_unsupported (by decide) (by decide) (by decide)]
    exact ⟨_, rfl, rfl, rfl⟩
  · intro fc hfc
    rw [exec_wr_cmd, runCommand_build, runBuild_of_addr_out_of_range hfc rfl]
    exact ⟨_, rfl, rfl, rfl⟩

end Sys2Proof.Machine
end

section
/-! SUPPORT. The register map of the host register space (20_memory R31, R38). -/

namespace Sys2Proof

/-- Past the registers of one byte, an address belongs to TXBUF, to RXBUF or to no register (20_memory R31). -/
theorem regOf_of_le {a : Addr} (h : 0x012 ≤ a.toNat) :
    regOf a = if htx : 0x020 ≤ a.toNat ∧ a.toNat ≤ 0x030 then some (.txbuf ⟨a.toNat - 0x020, by omega⟩)
      else if 0x100 ≤ a.toNat then some (.rxbuf (BitVec.ofNat 8 (a.toNat - 0x100))) else none := by
  unfold regOf
  split
  case h_19 => rfl
  all_goals omega

/-- The register at the address of a register is that register (20_memory R31). -/
theorem regOf_addrOf (r : RegName) : regOf (addrOf r) = some r := by
  cases r with
  | txbuf i =>
    have haddr : (addrOf (.txbuf i)).toNat = 0x020 + i.val := by
      simp only [addrOf, BitVec.toNat_ofNat]
      omega
    rw [regOf_of_le (by omega), dif_pos (by omega)]
    simp [haddr]
  | rxbuf i =>
    have haddr : (addrOf (.rxbuf i)).toNat = 0x100 + i.toNat := by
      simp only [addrOf, BitVec.toNat_ofNat]
      omega
    rw [regOf_of_le (by omega), dif_neg (by omega), if_pos (by omega)]
    simp [haddr]
  | _ => rfl

/-- Every address below 0x012 has a register (20_memory R31). -/
theorem regOf_ne_none_of_lt {a : Addr} (h : a.toNat < 0x012) : regOf a ≠ none := by
  unfold regOf
  interval_cases a.toNat <;> simp

/-- The addresses without a register are the two unmapped ranges (20_memory R38). -/
theorem regOf_eq_none_iff (a : Addr) :
    regOf a = none ↔ (0x012 ≤ a.toNat ∧ a.toNat ≤ 0x01F) ∨ (0x031 ≤ a.toNat ∧ a.toNat ≤ 0x0FF) := by
  by_cases hle : 0x012 ≤ a.toNat
  · rw [regOf_of_le hle]
    split_ifs with htx hrx
    · exact iff_of_false (by simp) (by omega)
    · exact iff_of_false (by simp) (by omega)
    · exact iff_of_true rfl (by omega)
  · exact iff_of_false (regOf_ne_none_of_lt (by omega)) (by omega)

end Sys2Proof

namespace Sys2Proof.Machine

/-- Settles O6: a buffer's addresses are its base plus an index, and every other register has an address of its own. -/
theorem registerMapIsExact : Obligations.RegisterMapIsExact :=
  ⟨regOf_addrOf, addrOf_of_regOf, regOf_eq_none_iff⟩

end Sys2Proof.Machine
end

section
/-! SUPPORT. What a read and a write of a register leave for the reads after them (20_memory R37, R39). -/

namespace Sys2Proof.Machine

/-- A read transaction is RD (43_host_access R101). -/
theorem exec_rd (a : Addr) (d : Byte) (s : State) : exec (.rd a d) s = execRd a d s := rfl

/-- Returning a byte to the host changes what no register reads as (20_memory R37). -/
theorem loadReg_pushRead (s : State) (b : Byte) (r : RegName) : (s.pushRead b).loadReg r = s.loadReg r := by
  cases r <;> rfl

/-- A refusal changes what no register reads as (60_exceptions R114). -/
theorem loadReg_markRefused (s : State) (r : RegName) : s.markRefused.loadReg r = s.loadReg r := by
  cases r <;> rfl

/-- A read of an address with no readable register is refused (43_host_access R101). -/
theorem execRd_of_unreadable {a : Addr} {s : State} (h : (regOf a).bind s.loadReg = none) :
    execRd a 0x00#8 s = .next s.markRefused := by
  simp [execRd, h, refuse_next]

/-- Settles O33: neither a returned byte nor a refusal changes what the second read finds. -/
theorem readsHaveNoSideEffectAndRepeat : Obligations.ReadsHaveNoSideEffectAndRepeat := by
  intro s a t u ht hu
  rw [exec_rd] at ht hu
  rcases execRd_cases ht with ⟨_, r, b, hr, hb, rfl⟩ | ⟨hd | hnone, rfl⟩
  · rw [execRd_of_loadReg hr ((loadReg_pushRead s b r).trans hb)] at hu
    cases hu
    exact ⟨rfl, [b], rfl, rfl⟩
  · exact absurd rfl hd
  · rw [execRd_of_unreadable (by rwa [funext (loadReg_markRefused s)])] at hu
    cases hu
    exact ⟨rfl, [], by simp, by simp⟩

/-- A 16-bit value is its two bytes (20_memory R32). -/
theorem toNat_highByte_lowByte (v : U16) : (highByte v).toNat * 256 + (lowByte v).toNat = v.toNat := by
  simp only [highByte, lowByte, BitVec.extractLsb'_toNat, Nat.shiftRight_eq_div_pow]
  omega

/-- Settles O35: the read of CRC_LO leaves CRC for the read of CRC_HI. -/
theorem crcReadsAsTwoBytesOfOneValue : Obligations.CrcReadsAsTwoBytesOfOneValue := by
  intro s
  refine ⟨s.pushRead (lowByte s.crc), (s.pushRead (lowByte s.crc)).pushRead (highByte s.crc), lowByte s.crc,
    highByte s.crc, ?_, ?_, ?_, toNat_highByte_lowByte s.crc⟩
  · exact execRd_of_loadReg (regOf_addrOf .crcLo) rfl
  · exact execRd_of_loadReg (regOf_addrOf .crcHi) rfl
  · simp [State.pushRead]

/-- A write of a register by its address stores the byte, where the register takes one (43_host_access R100). -/
theorem exec_wr_addrOf {r : RegName} {d : Byte} {s t : State} (h : s.storeReg r d = some t) :
    exec (.wr (addrOf r) d) s = .next t :=
  execWr_of_storeReg (regOf_addrOf r) h

/-- Every register of access RW takes a byte (43_host_access R100). -/
theorem exists_storeReg_of_readWrite {r : RegName} (h : Claims.ReadWrite r) (s : State) (d : Byte) :
    ∃ t, s.storeReg r d = some t := by
  obtain ⟨hcmd, hstatus, hlo, hhi, htxlen, htx⟩ := h
  cases r with
  | cmd => exact absurd rfl hcmd
  | status => exact absurd rfl hstatus
  | crcLo => exact absurd rfl hlo
  | crcHi => exact absurd rfl hhi
  | txlen => exact absurd rfl htxlen
  | txbuf i => exact absurd rfl (htx i)
  | _ => exact ⟨_, rfl⟩

/-- The low byte of a 9-bit RXLEN put together from its two halves (10_state R17). -/
theorem rxlen_lowByte_append (hi : BitVec 1) (lo : Byte) : (hi ++ lo : BitVec 9).extractLsb' 0 8 = lo :=
  BitVec.extractLsb'_append_eq_right

/-- The top bit of a 9-bit RXLEN put together from its two halves (10_state R17). -/
theorem rxlen_topBit_append (hi : BitVec 1) (lo : Byte) : (hi ++ lo : BitVec 9).extractLsb' 8 1 = hi :=
  BitVec.extractLsb'_append_eq_left

/-- Bit 0 of a byte, as the byte RXLEN_HI reads as (43_host_access R103). -/
theorem zeros_append_bit0 (d : Byte) : (0#7 ++ d.extractLsb' 0 1 : Byte) = BitVec.ofNat 8 (d.toNat % 2) := by
  apply BitVec.eq_of_toNat_eq
  simp only [BitVec.toNat_append, BitVec.toNat_ofNat, Nat.zero_mod, Nat.zero_shiftLeft, Nat.zero_or,
    BitVec.extractLsb'_toNat, Nat.shiftRight_zero]
  omega

/-- A stored byte reads back; RXLEN_HI keeps its bit 0 alone (43_host_access R103). -/
theorem loadReg_storeReg_same {r : RegName} {d : Byte} {s t : State} (h : s.storeReg r d = some t) :
    t.loadReg r = some (if r = .rxlenHi then BitVec.ofNat 8 (d.toNat % 2) else d) := by
  cases r <;> cases h
  case rxlenLo => simp [State.loadReg, rxlen_lowByte_append]
  case rxlenHi => simp [State.loadReg, rxlen_topBit_append, zeros_append_bit0]
  case rxbuf i => simp [State.loadReg, State.rxByte, Memory.read_write_same]
  all_goals rfl

/-- A store leaves what every other register reads as (20_memory R39). -/
theorem loadReg_storeReg_other {r q : RegName} {d : Byte} {s t : State} (h : s.storeReg r d = some t) (hne : q ≠ r) :
    t.loadReg q = s.loadReg q := by
  cases r <;> cases h
  case rxlenLo =>
    cases q with
    | rxlenLo => exact absurd rfl hne
    | rxlenHi => simp [State.loadReg, rxlen_topBit_append]
    | _ => rfl
  case rxlenHi =>
    cases q with
    | rxlenLo => simp [State.loadReg, rxlen_lowByte_append]
    | rxlenHi => exact absurd rfl hne
    | _ => rfl
  case rxbuf i =>
    cases q with
    | rxbuf j =>
      have hij : j.toNat ≠ i.toNat := fun heq => hne (congrArg RegName.rxbuf (BitVec.eq_of_toNat_eq heq))
      simp [State.loadReg, State.rxByte, Memory.read_write_other _ _ _ _ hij]
    | _ => rfl
  all_goals
    cases q with
    | din | fc | addr | opcnt | nops | work0 | station0 | work1 | station1 | work2 | station2 =>
      simp [State.loadReg] at hne ⊢
    | _ => rfl

/-- Settles O34: a store, by the register it reaches. -/
theorem writtenRegistersReadBackAndOthersStay : Obligations.WrittenRegistersReadBackAndOthersStay := by
  intro s r d hrw
  obtain ⟨t, ht⟩ := exists_storeReg_of_readWrite hrw s d
  exact ⟨t, exec_wr_addrOf ht, loadReg_storeReg_same ht, fun _ hne => loadReg_storeReg_other ht hne⟩

end Sys2Proof.Machine
end

section
/-! SUPPORT. What VALIDATE reads (20_memory R44, 42_validator R91). -/

namespace Sys2Proof.Machine

/-- VALIDATE's test reads the bytes of RXBUF below RXLEN (42_validator R91). -/
theorem rxFrame_congr {s u : State} (hlen : s.rxlen = u.rxlen)
    (hbytes : ∀ i, i < s.rxlen.toNat → s.rxByte i = u.rxByte i) : s.rxFrame = u.rxFrame := by
  rw [State.rxFrame, State.rxFrame, ← hlen]
  exact List.map_congr_left fun i hi => hbytes i (List.mem_range.mp hi)

/-- Settles O24: past the bound VALID is 0, and below it the test of the two frames, which are one. -/
theorem validateReadsBelowRxlenAlone : Obligations.ValidateReadsBelowRxlenAlone := by
  intro s u t v hlen hknown hbytes ht hv
  obtain ⟨hover, hwithin⟩ := valid_of_execValidate ht
  obtain ⟨hover', hwithin'⟩ := valid_of_execValidate hv
  rw [← hlen] at hover' hwithin'
  by_cases hle : s.rxlen.toNat ≤ 256
  · obtain ⟨hs, hu⟩ := hknown hle
    rw [hwithin hle hs, hwithin' hle hu, rxFrame_congr hlen hbytes]
  · rw [hover (by omega), hover' (by omega)]

end Sys2Proof.Machine
end

section
/-! SUPPORT. The decoder by the fields of what it decodes (30_encoding R51, R53): a decode key by its command code and
then its function code, a transaction word by its write bit and then its data. -/

namespace Sys2Proof

/-- A row whose mask covers the command code alone fits the keys of its code (30_encoding R53). -/
theorem fits_codeRow (code : Byte) (i : Instr) (k : Key) :
    KeyRow.fits ⟨code.setWidth 16, 0x00FF#16, i⟩ k = (keyCode k == code) := by
  have hmask : k &&& 0x00FF#16 = (keyCode k).setWidth 16 := by
    rw [← Laws.FitsRow.code_under_mask (keyFc k), makeKey_fields]
  have hinj : (keyCode k).setWidth 16 = code.setWidth 16 ↔ keyCode k = code :=
    ⟨fun h => by simpa using congrArg (BitVec.setWidth 8) h, fun h => by rw [h]⟩
  rw [KeyRow.fits, hmask, Bool.eq_iff_iff, beq_iff_eq, beq_iff_eq, hinj]

/-- A key is put together from two bytes when they are its two fields. -/
theorem eq_makeKey_iff (k : Key) (fc code : Byte) : k = makeKey fc code ↔ keyFc k = fc ∧ keyCode k = code := by
  constructor
  · rintro rfl
    exact ⟨keyFc_makeKey fc code, keyCode_makeKey fc code⟩
  · rintro ⟨rfl, rfl⟩
    exact (makeKey_fields k).symm

/-- A row whose mask covers the whole key fits the one key of its function code and command code (30_encoding R53). -/
theorem fits_keyRow (fc code : Byte) (i : Instr) (k : Key) :
    KeyRow.fits ⟨makeKey fc code, 0xFFFF#16, i⟩ k = (keyFc k == fc && keyCode k == code) := by
  have hmask : k &&& 0xFFFF#16 = k := BitVec.and_allOnes
  rw [KeyRow.fits, hmask, Bool.eq_iff_iff, Bool.and_eq_true, beq_iff_eq, beq_iff_eq, beq_iff_eq, eq_makeKey_iff]

/-- The key table of 30_encoding R53, row by row by the fields it fixes. -/
theorem keyTable_eq : keyTable =
    [ ⟨(0x01#8).setWidth 16, 0x00FF#16, .crcInit⟩,
      ⟨(0x02#8).setWidth 16, 0x00FF#16, .crcUpdate⟩,
      ⟨(0x08#8).setWidth 16, 0x00FF#16, .validate⟩,
      ⟨makeKey 0x10#8 0x04#8, 0xFFFF#16, .buildMission⟩,
      ⟨makeKey 0x05#8 0x04#8, 0xFFFF#16, .buildLaunch⟩,
      ⟨makeKey 0x02#8 0x04#8, 0xFFFF#16, .buildReadTor⟩ ] := rfl

/-- A key decodes by its command code and, for BUILD, by its function code (30_encoding R53, R54, R55). -/
theorem decodeKey_eq (k : Key) : decodeKey k =
    if keyCode k = 0x01#8 then .ok .crcInit
    else if keyCode k = 0x02#8 then .ok .crcUpdate
    else if keyCode k = 0x08#8 then .ok .validate
    else if keyCode k = 0x04#8 then
      if keyFc k = 0x10#8 then .ok .buildMission
      else if keyFc k = 0x05#8 then .ok .buildLaunch
      else if keyFc k = 0x02#8 then .ok .buildReadTor
      else .error .unsupportedFc
    else .error .illegalCode := by
  simp only [decodeKey, keyTable_eq, List.find?_cons, List.find?_nil, fits_codeRow, fits_keyRow, beq_eq_decide]
  by_cases h01 : keyCode k = 0x01#8
  · simp [h01]
  by_cases h02 : keyCode k = 0x02#8
  · simp [h02]
  by_cases h08 : keyCode k = 0x08#8
  · simp [h08]
  by_cases h04 : keyCode k = 0x04#8
  · by_cases h10 : keyFc k = 0x10#8
    · simp [h04, h10]
    by_cases h05 : keyFc k = 0x05#8
    · simp [h04, h05]
    by_cases h02fc : keyFc k = 0x02#8
    · simp [h04, h02fc]
    simp [h04, h10, h05, h02fc]
  · simp [h01, h02, h08, h04]

/-- Settles O1: the fields that the encoder puts together are the ones that the decoder reads. -/
theorem decodeOfEncodeIsTheInstruction : Obligations.DecodeOfEncodeIsTheInstruction := by
  intro fc i hwf
  cases i with
  | wr a d => exact decode_makeHt_write a d
  | rd a d =>
    obtain rfl : d = 0#8 := by simpa [Instr.wellFormed] using hwf
    exact decode_makeHt_read a
  | _ => simp [encode, decode, decodeKey_eq, keyCode_makeKey, keyFc_makeKey]

/-- What a key decodes to is well formed and has that key among its encodings (30_encoding R53). -/
theorem encode_of_decodeKey {k : Key} {i : Instr} (h : decodeKey k = .ok i) :
    i.wellFormed = true ∧ encode (keyFc k) i = .key k := by
  rw [decodeKey_eq] at h
  have hkey := makeKey_fields k
  split_ifs at h with h01 h02 h08 h04 h10 h05 h02fc <;> cases h
  · exact ⟨rfl, by rw [encode, ← h01, hkey]⟩
  · exact ⟨rfl, by rw [encode, ← h02, hkey]⟩
  · exact ⟨rfl, by rw [encode, ← h08, hkey]⟩
  · exact ⟨rfl, by rw [encode, ← h04, ← h10, hkey]⟩
  · exact ⟨rfl, by rw [encode, ← h04, ← h05, hkey]⟩
  · exact ⟨rfl, by rw [encode, ← h04, ← h02fc, hkey]⟩

/-- What a transaction word decodes to is well formed and encodes to that word (30_encoding R51). -/
theorem encode_of_decodeHt {w : HTWord} {i : Instr} (fc : Byte) (h : decode (.ht w) = .ok i) :
    i.wellFormed = true ∧ encode fc i = .ht w := by
  have hword := makeHt_fields w
  rcases Machine.decodeHt_cases w with ⟨hw, hd⟩ | ⟨hw, hz, hd⟩ | ⟨_, _, hd⟩ <;> rw [hd] at h <;> cases h
  · exact ⟨rfl, by rw [encode, ← hw, hword]⟩
  · exact ⟨rfl, by rw [encode, ← hw, ← hz, hword]⟩

/-- Settles O2: a form that decodes is put together from the fields its instruction carries or fixes. -/
theorem encodeOfDecodeIsTheSameBits : Obligations.EncodeOfDecodeIsTheSameBits :=
  fun _ => ⟨fun _ h => encode_of_decodeKey h, fun _ fc h => encode_of_decodeHt fc h⟩

/-- The command code of a key in numbers. -/
theorem toNat_keyCode (k : Key) : (keyCode k).toNat = k.toNat % 256 := by
  simp [keyCode]

/-- The function code of a key in numbers. -/
theorem toNat_keyFc (k : Key) : (keyFc k).toNat = k.toNat / 256 := by
  have := k.isLt
  simp only [keyFc, BitVec.extractLsb'_toNat, Nat.shiftRight_eq_div_pow]
  omega

/-- Settles O3: the decoder's case split, with the two fields in numbers. -/
theorem keyDecodesByCodeThenFunctionCode : Obligations.KeyDecodesByCodeThenFunctionCode := by
  intro k
  rw [← toNat_keyCode, ← toNat_keyFc, decode, decodeKey_eq]
  simp only [← BitVec.toNat_inj, BitVec.toNat_ofNat, Nat.reducePow, Nat.reduceMod]

/-- The write bit of a transaction word in numbers. -/
theorem htWrite_iff (w : HTWord) : htWrite w = true ↔ w.toNat / 2 ^ 17 = 1 := by
  have := w.isLt
  rw [htWrite, BitVec.getLsbD, Nat.testBit_eq_decide_div_mod_eq, decide_eq_true_iff]
  omega

/-- The address field of a transaction word in numbers. -/
theorem htAddr_eq (w : HTWord) : htAddr w = BitVec.ofNat 9 (w.toNat / 2 ^ 8 % 2 ^ 9) := by
  apply BitVec.eq_of_toNat_eq
  simp [htAddr, Nat.shiftRight_eq_div_pow]

/-- The data field of a transaction word in numbers. -/
theorem htData_eq (w : HTWord) : htData w = BitVec.ofNat 8 (w.toNat % 2 ^ 8) := by
  apply BitVec.eq_of_toNat_eq
  simp [htData]

/-- The data field is zero when its number is. -/
theorem htData_eq_zero_iff (w : HTWord) : htData w = 0x00#8 ↔ w.toNat % 2 ^ 8 = 0 := by
  simp [htData_eq, ← BitVec.toNat_inj]

/-- Settles O4: the three cases of the word decoder, with the fields in numbers; a rejected word leaves the queue and is
refused. -/
theorem transactionWordFields : Obligations.TransactionWordFields := by
  refine ⟨fun w hw => ?_, fun w hw hd => ?_, fun w hw hd => ?_, by decide, by decide⟩
  · rw [← htAddr_eq, ← htData_eq, decode, decodeHt, if_pos ((htWrite_iff w).mpr hw)]
  · rw [← htAddr_eq, decode, decodeHt, if_neg (by rw [htWrite_iff]; omega), if_pos ((htData_eq_zero_iff w).mpr hd),
      (htData_eq_zero_iff w).mpr hd]
  · have hreject : decode (.ht w) = .error .readDataNonzero := by
      rw [decode, decodeHt, if_neg (by rw [htWrite_iff]; omega), if_neg (mt (htData_eq_zero_iff w).mp hd)]
    refine ⟨hreject, fun s rest hp => ?_⟩
    rw [Machine.step_rejected hp hreject, Machine.popEvent_of_pending hp]
    rfl

/-- Settles O5: each of the nine words is decoded. -/
theorem tableWordsDecodeToTheirRows : Obligations.TableWordsDecodeToTheirRows := by
  unfold Obligations.TableWordsDecodeToTheirRows
  decide

end Sys2Proof

namespace Sys2Proof.Machine

/-- A write of CMD runs the instruction that FC and the byte written decode to (30_encoding R53, 43_host_access R102). -/
theorem runCommand_of_decodeKey {code : Byte} {s : State} {i : Instr} (h : decodeKey (makeKey s.fc code) = .ok i) :
    runCommand code s = exec i s := by
  rw [decodeKey_eq, keyCode_makeKey, keyFc_makeKey] at h
  split_ifs at h with h01 h02 h08 h04 h10 h05 h02fc <;> cases h
  · rw [h01]; rfl
  · rw [h02]; rfl
  · rw [h08]; rfl
  · rw [h04, runCommand_build, runBuild, if_pos h10]; rfl
  · rw [h04, runCommand_build, runBuild, if_neg h10, if_pos h05]; rfl
  · rw [h04, runCommand_build, runBuild, if_neg h10, if_neg h05, if_pos h02fc]; rfl

/-- Settles O41: the write of CMD decodes to a WR, which runs the command of its code. -/
theorem stepRunsTheCommandOfTheDecodeKey : Obligations.StepRunsTheCommandOfTheDecodeKey := by
  intro s code rest i hp hkey
  rw [step_access hp (decode_makeHt_write _ code), popEvent_of_pending hp, exec_wr_cmd]
  exact runCommand_of_decodeKey hkey

end Sys2Proof.Machine
end

section
/-! SUPPORT. Runs of the host's pseudo-instructions (30_encoding R65): each is an induction over the words it places, with
one rule for the step of a write, of a command and of a read. -/

namespace Sys2Proof.Machine

/-- The step of `WR <reg>` on a register that takes a byte stores it (30_encoding R64, 43_host_access R100). -/
theorem step_asm_wr {s t : State} {r : RegName} {d : Byte} {rest : List HostEvent}
    (hp : s.pending = .access (Asm.wr r d) :: rest) (ht : State.storeReg { s with pending := rest } r d = some t) :
    step s = .next t := by
  rw [step_access hp (decode_makeHt_write _ d), popEvent_of_pending hp]
  exact exec_wr_addrOf ht

/-- The step of `WR CMD` runs the command of its code (30_encoding R64, 43_host_access R102). -/
theorem step_asm_cmd {s : State} {code : Byte} {rest : List HostEvent}
    (hp : s.pending = .access (Asm.wr .cmd code) :: rest) : step s = runCommand code { s with pending := rest } := by
  rw [step_access hp (decode_makeHt_write _ code), popEvent_of_pending hp]
  exact exec_wr_cmd code _

/-- No register shows the queue of events. -/
theorem loadReg_with_pending (s : State) (rest : List HostEvent) (r : RegName) :
    State.loadReg { s with pending := rest } r = s.loadReg r := by
  cases r <;> rfl

/-- The step of `RD <reg>` on a readable register returns its byte (30_encoding R64, 43_host_access R101). -/
theorem step_asm_rd {s : State} {r : RegName} {b : Byte} {rest : List HostEvent}
    (hp : s.pending = .access (Asm.rd r) :: rest) (hb : s.loadReg r = some b) :
    step s = .next { s with reads := s.reads ++ [b], pending := rest } := by
  rw [step_access hp (decode_makeHt_read _), popEvent_of_pending hp]
  exact execRd_of_loadReg (regOf_addrOf r) ((loadReg_with_pending s rest r).trans hb)

/-- CRCB folds its bytes into CRC and leaves the last one in DIN (30_encoding R65, 40_crc R74). -/
theorem run_crcb (bs : List Byte) (s : State) (rest : List HostEvent)
    (hp : s.pending = (Asm.crcb bs).map .access ++ rest) :
    Host.Core.run Sys2Proof.core (2 * bs.length) s =
      .next { s with crc := bs.foldl crcStep8 s.crc, din := bs.getLast?.getD s.din, pending := rest } := by
  induction bs generalizing s with
  | nil =>
    obtain rfl : s.pending = rest := hp
    rfl
  | cons b bs ih =>
    have hdin : step s = .next { s with
        din := b, pending := .access (Asm.wr .cmd 0x02#8) :: ((Asm.crcb bs).map .access ++ rest) } :=
      step_asm_wr hp rfl
    calc Host.Core.run Sys2Proof.core (2 * bs.length + 2) s
      _ = Host.Core.run Sys2Proof.core (2 * bs.length) { s with
            crc := crcStep8 s.crc b, din := b, pending := (Asm.crcb bs).map .access ++ rest } :=
        (run_of_step hdin).trans (run_of_step (step_asm_cmd (code := 0x02#8) rfl))
      _ = _ := ih _ rfl
      _ = _ := by simp [List.getLast?_cons]

/-- Settles O12: CRC_INIT loads the accumulator that CRCB folds from, and the CRC of a sequence is that fold. -/
theorem streamedCrcEqualsTheSequenceCrc : Obligations.StreamedCrcEqualsTheSequenceCrc := by
  refine ⟨fun s bs rest hp => ?_, fun s t => List.foldl_append⟩
  have hinit : step s = .next { s with crc := Config.crcInit, pending := (Asm.crcb bs).map .access ++ rest } :=
    step_asm_cmd hp
  rw [Nat.add_comm, run_of_step hinit]
  exact run_crcb bs _ rest rfl

/-- A store to an RXBUF byte by its index (43_host_access R100). -/
theorem storeReg_rxbuf (s : State) {i : Nat} (hi : i < 256) (d : Byte) :
    s.storeReg (.rxbuf (BitVec.ofNat 8 i)) d = some { s with rxbuf := s.rxbuf.write i d } := by
  have hidx : (BitVec.ofNat 8 i).toNat = i := Nat.mod_eq_of_lt hi
  rw [State.storeReg, hidx]

/-- The RXBUF writes of LOADRX store its bytes from their index on (30_encoding R65). -/
theorem run_loadBytes (bs : List Byte) (j : Nat) (s : State) (rest : List HostEvent) (hfits : j + bs.length ≤ 256)
    (hp : s.pending = (Asm.loadBytes j bs).map .access ++ rest) :
    Host.Core.run Sys2Proof.core bs.length s =
      .next { s with rxbuf := s.rxbuf.writeAll j bs, pending := rest } := by
  induction bs generalizing s j with
  | nil =>
    obtain rfl : s.pending = rest := hp
    rfl
  | cons b bs ih =>
    rw [List.length_cons] at hfits
    calc Host.Core.run Sys2Proof.core (bs.length + 1) s
      _ = Host.Core.run Sys2Proof.core bs.length { s with
            rxbuf := s.rxbuf.write j b, pending := (Asm.loadBytes (j + 1) bs).map .access ++ rest } :=
        run_of_step (step_asm_wr hp (storeReg_rxbuf _ (by omega) b))
      _ = _ := ih (j + 1) _ (by omega) rfl

/-- The two bytes that LOADRX writes to RXLEN put its number of bytes together (10_state R17, 43_host_access R103). -/
theorem rxlen_of_halves (hi : BitVec 1) (k : BitVec 9) :
    (0#7 ++ k.extractLsb' 8 1 : Byte).extractLsb' 0 1 ++ (hi ++ k.extractLsb' 0 8 : BitVec 9).extractLsb' 0 8 = k := by
  rw [rxlen_lowByte_append, BitVec.extractLsb'_append_eq_right]
  exact BitVec.extractLsb'_append_extractLsb'

/-- The state with a response received: its bytes in RXBUF and their number in RXLEN (10_state R16, R17). -/
def State.loaded (s : State) (r : List Byte) : State :=
  { s with rxbuf := s.rxbuf.writeAll 0 r, rxlen := BitVec.ofNat 9 r.length }

/-- LOADRX loads its bytes as the response and changes nothing else (30_encoding R65). -/
theorem run_loadrx (r : List Byte) (s : State) (rest : List HostEvent) (hfits : r.length ≤ 256)
    (hp : s.pending = (Asm.loadrx r).map .access ++ rest) :
    Host.Core.run Sys2Proof.core (r.length + 2) s = .next { s.loaded r with pending := rest } := by
  simp only [Asm.loadrx, List.map_append, List.append_assoc] at hp
  rw [State.loaded]
  generalize BitVec.ofNat 9 r.length = k at hp ⊢
  calc Host.Core.run Sys2Proof.core (r.length + 2) s
    _ = Host.Core.run Sys2Proof.core 2 { s with
          rxbuf := s.rxbuf.writeAll 0 r,
          pending := .access (Asm.wr .rxlenLo (k.extractLsb' 0 8)) ::
            .access (Asm.wr .rxlenHi (0#7 ++ k.extractLsb' 8 1)) :: rest } :=
      run_add (run_loadBytes r 0 s _ (by omega) hp)
    _ = Host.Core.run Sys2Proof.core 1 { s with
          rxbuf := s.rxbuf.writeAll 0 r,
          rxlen := s.rxlen.extractLsb' 8 1 ++ k.extractLsb' 0 8,
          pending := .access (Asm.wr .rxlenHi (0#7 ++ k.extractLsb' 8 1)) :: rest } :=
      run_of_step (step_asm_wr rfl rfl)
    _ = Host.Core.run Sys2Proof.core 0 { s with
          rxbuf := s.rxbuf.writeAll 0 r,
          rxlen := (0#7 ++ k.extractLsb' 8 1 : Byte).extractLsb' 0 1 ++
            (s.rxlen.extractLsb' 8 1 ++ k.extractLsb' 0 8 : BitVec 9).extractLsb' 0 8,
          pending := rest } :=
      run_of_step (step_asm_wr rfl rfl)
    _ = _ := by rw [run_zero, rxlen_of_halves]

/-- RXBUF holds the loaded bytes, and past them what it held before. -/
theorem rxByte_loaded (s : State) (r : List Byte) (i : Nat) :
    (s.loaded r).rxByte i = if h : i < r.length then r[i] else s.rxByte i := by
  simp only [State.rxByte, State.loaded, Memory.read_writeAll, Nat.zero_le, true_and, Nat.zero_add, Nat.sub_zero]
  split_ifs with h
  · simp [h]
  · rfl

/-- RXLEN is the number of bytes loaded, where the buffer holds them. -/
theorem toNat_rxlen_loaded (s : State) {r : List Byte} (hfits : r.length ≤ 256) :
    (s.loaded r).rxlen.toNat = r.length :=
  Nat.mod_eq_of_lt (by omega)

/-- The response frame is the bytes loaded. -/
theorem rxFrame_loaded (s : State) {r : List Byte} (hfits : r.length ≤ 256) : (s.loaded r).rxFrame = r := by
  apply List.ext_getElem
  · simp [State.rxFrame, toNat_rxlen_loaded s hfits]
  · intro i _ hi
    simp [State.rxFrame, rxByte_loaded, hi]

/-- Every byte of the response is known once it is loaded (20_memory R45). -/
theorem responseKnown_loaded (s : State) {r : List Byte} (hfits : r.length ≤ 256) :
    (s.loaded r).responseKnown = true := by
  rw [responseKnown_iff, rxWritten_iff, toNat_rxlen_loaded s hfits]
  exact .inr fun i hi => by simp [State.loaded, Memory.read_writeAll, hi]

/-- LOADRX and then VALIDATE set VALID to the validator's answer on the bytes loaded (42_validator R91). -/
theorem run_loadrx_validate (r : List Byte) (s : State) (rest : List HostEvent) (hfits : r.length ≤ 256)
    (hp : s.pending = (Asm.loadrx r ++ Asm.cmd .validate).map .access ++ rest) :
    Host.Core.run Sys2Proof.core (r.length + 3) s =
      .next { s.loaded r with valid := validate r, pending := rest } := by
  rw [List.map_append, List.append_assoc] at hp
  have hvalidate : execValidate { s.loaded r with pending := rest } =
      .next { s.loaded r with valid := validate (s.loaded r).rxFrame, pending := rest } :=
    execValidate_known ((toNat_rxlen_loaded s hfits).trans_le hfits) (responseKnown_loaded s hfits)
  rw [rxFrame_loaded s hfits] at hvalidate
  calc Host.Core.run Sys2Proof.core (r.length + 2 + 1) s
    _ = Host.Core.run Sys2Proof.core 1 { s.loaded r with
          pending := .access (Asm.wr .cmd 0x08#8) :: rest } :=
      run_add (run_loadrx r s _ hfits hp)
    _ = _ := run_of_step ((step_asm_cmd (code := 0x08#8) rfl).trans hvalidate)

/-- Settles O25: the run ends in the loaded state with the validator's answer in VALID. -/
theorem loadrxThenValidateJudgesTheReply : Obligations.LoadrxThenValidateJudgesTheReply := by
  intro s r rest hfits hp
  refine ⟨_, run_loadrx_validate r s rest hfits hp, rxFrame_loaded s hfits, rfl, fun i hi => ?_, rfl⟩
  exact (rxByte_loaded s r i).trans (dif_neg (Nat.not_lt.mpr hi))

/-- Reads of TXBUF return the bytes a host reads there, in order, and change nothing else (43_host_access R101). -/
theorem run_readTxbuf (is : List (Fin 17)) (s : State) (rest : List HostEvent)
    (hp : s.pending = (is.map fun i => Asm.rd (.txbuf i)).map .access ++ rest) :
    Host.Core.run Sys2Proof.core is.length s =
      .next { s with reads := s.reads ++ is.map (fun i => s.txRead i.val), pending := rest } := by
  induction is generalizing s with
  | nil =>
    obtain rfl : s.pending = rest := hp
    simp [run_zero]
  | cons i is ih =>
    calc Host.Core.run Sys2Proof.core (is.length + 1) s
      _ = Host.Core.run Sys2Proof.core is.length { s with
            reads := s.reads ++ [s.txRead i.val],
            pending := (is.map fun i => Asm.rd (.txbuf i)).map .access ++ rest } :=
        run_of_step (step_asm_rd hp rfl)
      _ = .next { s with reads := s.reads ++ [s.txRead i.val] ++ is.map (fun i => s.txRead i.val), pending := rest } :=
        ih _ rfl
      _ = _ := by rw [List.append_assoc, List.singleton_append, List.map_cons]

/-- The indices that RDTX reads are those below TXLEN, for a TXLEN that TXBUF holds (30_encoding R65). -/
theorem map_val_filter_finRange : ∀ n ≤ 17,
    ((List.finRange 17).filter (fun i => i.val < n)).map Fin.val = List.range n := by
  decide

/-- Settles O28: a read of TXLEN, then the reads of TXBUF below it. -/
theorem rdtxReadsOutTheFrame : Obligations.RdtxReadsOutTheFrame := by
  intro s rest hlen hp
  have hindices := map_val_filter_finRange s.txlen.toNat hlen
  rw [Asm.rdtx] at hp
  generalize (List.finRange 17).filter (fun i => i.val < s.txlen.toNat) = is at hp hindices
  have hcount : is.length = s.txlen.toNat := by simpa using congrArg List.length hindices
  have hframe : is.map (fun i => s.txRead i.val) = Claims.frameRead s := by
    rw [Claims.frameRead, ← hindices, List.map_map]
    rfl
  calc Host.Core.run Sys2Proof.core (1 + s.txlen.toNat) s
    _ = Host.Core.run Sys2Proof.core (is.length + 1) s := by rw [hcount, Nat.add_comm]
    _ = Host.Core.run Sys2Proof.core is.length { s with
          reads := s.reads ++ [s.txlen],
          pending := (is.map fun i => Asm.rd (.txbuf i)).map .access ++ rest } :=
      run_of_step (step_asm_rd hp rfl)
    _ = .next { s with reads := s.reads ++ [s.txlen] ++ is.map (fun i => s.txRead i.val), pending := rest } :=
      run_readTxbuf is _ rest rfl
    _ = _ := by rw [hframe, List.append_assoc, List.singleton_append]

end Sys2Proof.Machine
end

section
/-! SUPPORT. The CRC16 engine (40_crc R70 to R74): one bit iteration in numbers, one byte step as eight of them, and the
two commands that write the accumulator. -/

namespace Sys2Proof.Machine

/-- The low bit of an accumulator in numbers. -/
theorem getLsbD_zero_eq (c : U16) : c.getLsbD 0 = decide (c.toNat % 2 = 1) := by
  rw [BitVec.getLsbD, Nat.testBit_zero]

/-- An odd accumulator is shifted and takes the polynomial (40_crc R70). -/
theorem crcBit_of_odd {c : U16} (h : c.getLsbD 0 = true) : crcBit c = (c >>> 1) ^^^ Config.crcPoly := by
  rw [crcBit, if_pos h]

/-- An even accumulator is shifted alone (40_crc R70). -/
theorem crcBit_of_even {c : U16} (h : c.getLsbD 0 = false) : crcBit c = c >>> 1 := by
  rw [crcBit, if_neg (ne_true_of_eq_false h)]

/-- Settles O9: the two branches of the iteration, with the low bit, the shift and the XOR in numbers. -/
theorem crcBitShiftsAndXorsThePolynomial : Obligations.CrcBitShiftsAndXorsThePolynomial := by
  intro c
  have hshift : (c >>> 1).toNat = c.toNat / 2 := by rw [BitVec.toNat_ushiftRight, Nat.shiftRight_one]
  constructor
  · intro hodd
    rw [crcBit_of_odd ((getLsbD_zero_eq c).trans (decide_eq_true hodd)), BitVec.toNat_xor, hshift]
    rfl
  · intro heven
    rw [crcBit_of_even ((getLsbD_zero_eq c).trans (decide_eq_false (by omega))), hshift]

/-- Settles O10: the byte is XORed in as a 16-bit word, and the eight iterations are the recursion unrolled. -/
theorem crcByteStepIsEightBitIterations : Obligations.CrcByteStepIsEightBitIterations := by
  refine ⟨fun c b => ?_, by decide, by decide⟩
  rw [crcStep8, BitVec.setWidth_eq_append (by omega)]
  rfl

/-- The CRC of a sequence with more bytes at its end goes on from the CRC of the sequence (40_crc R72). -/
theorem crc16_append (s t : List Byte) : crc16 (s ++ t) = t.foldl crcStep8 (crc16 s) :=
  List.foldl_append

/-- Settles O11: the fold of no byte, and the fold of one byte more. -/
theorem crcOfASequenceFoldsItsBytesInOrder : Obligations.CrcOfASequenceFoldsItsBytesInOrder :=
  ⟨rfl, fun s b => crc16_append s [b]⟩

/-- A command code issued by a write of CMD runs the instruction that its key decodes to under every FC
(30_encoding R53, 43_host_access R102). -/
theorem exec_wr_cmd_of_decode {code : Byte} {i : Instr} (h : ∀ fc, decode (.key (makeKey fc code)) = .ok i) (s : State) :
    exec (.wr 0x000#9 code) s = exec i s :=
  (exec_wr_cmd code s).trans (runCommand_of_decodeKey (h s.fc))

/-- CRC_INIT in full (40_crc R73). -/
theorem exec_crcInit (s : State) : exec .crcInit s = .next { s with crc := Config.crcInit } := rfl

/-- CRC_UPDATE in full (40_crc R74). -/
theorem exec_crcUpdate (s : State) : exec .crcUpdate s = .next { s with crc := crcStep8 s.crc s.din } := rfl

/-- Settles O7: code 0x01 decodes to CRC_INIT under every FC, and after reset CRC is already 0xFFFF. -/
theorem crcInitSetsFFFFAndNothingElse : Obligations.CrcInitSetsFFFFAndNothingElse := by
  have hkey : ∀ fc, decode (.key (makeKey fc 0x01#8)) = .ok .crcInit :=
    fun fc => decodeOfEncodeIsTheInstruction fc .crcInit rfl
  exact ⟨exec_crcInit, exec_wr_cmd_of_decode hkey, hkey, exec_crcInit State.reset⟩

/-- Settles O8: code 0x02 decodes to CRC_UPDATE under every FC, and the corner cases are evaluated. -/
theorem crcUpdateFoldsDinAndNothingElse : Obligations.CrcUpdateFoldsDinAndNothingElse := by
  have hkey : ∀ fc, decode (.key (makeKey fc 0x02#8)) = .ok .crcUpdate :=
    fun fc => decodeOfEncodeIsTheInstruction fc .crcUpdate rfl
  exact ⟨exec_crcUpdate, exec_wr_cmd_of_decode hkey, hkey, by decide, by decide, by decide⟩

end Sys2Proof.Machine
end

section
/-! SUPPORT. The CRC loses nothing: a bit iteration, a byte step and the fold over a sequence are injective in the
accumulator, and a byte step is injective in the byte. With the accumulator that two given bytes bring to zero, this is
the residue of a frame and the detection of an error in one byte (40_crc R77, R78). -/

namespace Sys2Proof.Machine

/-- The bit that an iteration shifts out stands in bit 15, which the polynomial sets (40_crc R70). -/
theorem getLsbD_crcBit_top (c : U16) : (crcBit c).getLsbD 15 = c.getLsbD 0 := by
  cases h : c.getLsbD 0 with
  | true => simp [crcBit_of_odd h, Config.crcPoly]
  | false => simp [crcBit_of_even h]

/-- An accumulator is its low bit and the rest of it. -/
theorem eq_of_low_bit_of_shift {c d : U16} (hlow : c.getLsbD 0 = d.getLsbD 0) (hshift : c >>> 1 = d >>> 1) : c = d := by
  apply BitVec.eq_of_getLsbD_eq
  intro j _
  cases j with
  | zero => exact hlow
  | succ j => simpa [Nat.add_comm] using congrArg (fun v : U16 => v.getLsbD j) hshift

/-- A bit iteration loses nothing: bit 15 of its result tells which branch it took. -/
theorem crcBit_injective : Function.Injective crcBit := by
  intro c d h
  have hlow : c.getLsbD 0 = d.getLsbD 0 := by rw [← getLsbD_crcBit_top, ← getLsbD_crcBit_top, h]
  apply eq_of_low_bit_of_shift hlow
  cases hc : c.getLsbD 0 with
  | true => rwa [crcBit_of_odd hc, crcBit_of_odd (hlow ▸ hc), BitVec.xor_left_inj] at h
  | false => rwa [crcBit_of_even hc, crcBit_of_even (hlow ▸ hc)] at h

theorem crcBits_injective (n : Nat) : Function.Injective (crcBits n) := by
  induction n with
  | zero => exact Function.injective_id
  | succ n ih => exact ih.comp crcBit_injective

/-- Two accumulators that one byte brings together are one. -/
theorem crcStep8_left_injective (b : Byte) : Function.Injective (fun c => crcStep8 c b) :=
  fun _ _ h => (BitVec.xor_left_inj _).mp (crcBits_injective 8 h)

/-- Two bytes that bring one accumulator to the same result are one. -/
theorem crcStep8_right_injective (c : U16) : Function.Injective (crcStep8 c) := by
  intro a b h
  have hwide : a.setWidth 16 = b.setWidth 16 := (BitVec.xor_right_inj c).mp (crcBits_injective 8 h)
  simpa using congrArg (BitVec.setWidth 8) hwide

theorem foldl_crcStep8_injective (t : List Byte) : Function.Injective (fun c => t.foldl crcStep8 c) := by
  induction t with
  | nil => exact Function.injective_id
  | cons b t ih => exact ih.comp (crcStep8_left_injective b)

/-- Iterations over zero bits only shift (40_crc R70). -/
theorem crcBits_of_low_zero {n : Nat} {c : U16} (h : ∀ j < n, c.getLsbD j = false) : crcBits n c = c >>> n := by
  induction n generalizing c with
  | zero => simp [crcBits]
  | succ n ih =>
    have hshift : ∀ j < n, (c >>> 1).getLsbD j = false := by
      intro j hj
      rw [BitVec.getLsbD_ushiftRight]
      exact h (1 + j) (by omega)
    rw [crcBits, crcBit_of_even (h 0 (by omega)), ih hshift, ← BitVec.shiftRight_add, Nat.add_comm]

/-- A word's low byte, folded into the word, leaves its high byte (40_crc R71). -/
theorem crcStep8_word (x y : Byte) :
    crcStep8 ((y.setWidth 16 <<< 8) ||| x.setWidth 16) x = y.setWidth 16 := by
  have hxor : ((y.setWidth 16 <<< 8) ||| x.setWidth 16) ^^^ x.setWidth 16 = y.setWidth 16 <<< 8 := by
    apply BitVec.eq_of_getLsbD_eq
    intro j _
    by_cases h8 : j < 8
    · simp [h8]
    · simp [h8, BitVec.getLsbD_of_ge x j (by omega)]
  have hlow : ∀ j < 8, (y.setWidth 16 <<< 8 : U16).getLsbD j = false := by
    intro j hj
    simp [hj]
  rw [crcStep8, hxor, crcBits_of_low_zero hlow]
  bv_omega

/-- A byte folded into itself leaves zero (40_crc R71). -/
theorem crcStep8_self (y : Byte) : crcStep8 (y.setWidth 16) y = 0x0000#16 := by
  rw [crcStep8, BitVec.xor_self]
  decide

/-- Two bytes bring exactly one accumulator to zero, the word they make, low byte first (40_crc R77). -/
theorem crcStep8_pair_eq_zero_iff (c : U16) (x y : Byte) :
    crcStep8 (crcStep8 c x) y = 0x0000#16 ↔ c = (y.setWidth 16 <<< 8) ||| x.setWidth 16 := by
  have hword : crcStep8 (crcStep8 ((y.setWidth 16 <<< 8) ||| x.setWidth 16) x) y = 0x0000#16 := by
    rw [crcStep8_word, crcStep8_self]
  rw [← hword]
  exact (foldl_crcStep8_injective [x, y]).eq_iff

/-- The CRC of a sequence and two bytes more is zero exactly when the bytes are its CRC, low byte first (40_crc R77). -/
theorem crc16_append_pair_eq_zero_iff (p : List Byte) (x y : Byte) :
    crc16 (p ++ [x, y]) = 0x0000#16 ↔ crc16 p = (y.setWidth 16 <<< 8) ||| x.setWidth 16 := by
  rw [crc16_append]
  exact crcStep8_pair_eq_zero_iff (crc16 p) x y

/-- A sequence of two bytes or more is a sequence and its last two bytes. -/
theorem exists_append_pair {r : List Byte} (h : 2 ≤ r.length) : ∃ p x y, r = p ++ [x, y] := by
  have hlast : (r.drop (r.length - 2)).length = 2 := by rw [List.length_drop]; omega
  obtain ⟨x, y, hxy⟩ := List.length_eq_two.mp hlast
  exact ⟨r.take (r.length - 2), x, y, by rw [← hxy, List.take_append_drop]⟩

/-- From 3 bytes on, the validator's test is that the CRC of the whole sequence is zero (40_crc R77, 42_validator R90). -/
theorem validate_iff_crc16_eq_zero {r : List Byte} (h : 3 ≤ r.length) : validate r = true ↔ crc16 r = 0x0000#16 := by
  obtain ⟨p, x, y, rfl⟩ := exists_append_pair (by omega : 2 ≤ r.length)
  have hp : p ≠ [] := by
    rintro rfl
    simp at h
  rw [validate_append_pair hp, beq_iff_eq, crc16_append_pair_eq_zero_iff]

/-- The two bytes of a CRC in numbers are its low and its high byte (30_encoding R62). -/
theorem crcBytes_eq_littleEndian (p : List Byte) : Claims.crcBytes p = littleEndian (crc16 p) := by
  have hlow : BitVec.ofNat 8 ((crc16 p).toNat % 256) = lowByte (crc16 p) :=
    BitVec.eq_of_toNat_eq (by simp [lowByte])
  have hhigh : BitVec.ofNat 8 ((crc16 p).toNat / 256) = highByte (crc16 p) :=
    BitVec.eq_of_toNat_eq (by simp [highByte, Nat.shiftRight_eq_div_pow])
  rw [Claims.crcBytes, hlow, hhigh, littleEndian]

/-- Settles O13: the CRC's two bytes make the CRC again, and that is the accumulator they bring to zero. -/
theorem crcResidueOfAFrameIsZero : Obligations.CrcResidueOfAFrameIsZero := by
  refine ⟨fun p => ?_, fun r => validate_iff_crc16_eq_zero⟩
  rw [crcBytes_eq_littleEndian, littleEndian, crc16_append_pair_eq_zero_iff, highByte_shiftLeft_or_lowByte]

/-- A sequence the validator accepts has at least 3 bytes (42_validator R90). -/
theorem three_le_length_of_validate {r : List Byte} (h : validate r = true) : 3 ≤ r.length := by
  by_contra hshort
  rw [validate, if_pos (by omega)] at h
  cases h

/-- One byte for another at one place changes the CRC. -/
theorem crc16_ne_of_byte_ne (p t : List Byte) {a b : Byte} (h : a ≠ b) : crc16 (p ++ a :: t) ≠ crc16 (p ++ b :: t) := by
  rw [crc16_append, crc16_append]
  exact fun heq => h (crcStep8_right_injective (crc16 p) (foldl_crcStep8_injective t heq))

/-- A modified byte changes the CRC, wherever it stands in the sequence. -/
theorem crc16_modify_ne {r : List Byte} {j : Nat} {f : Byte → Byte} (hj : j < r.length) (hf : f r[j] ≠ r[j]) :
    crc16 (r.modify j f) ≠ crc16 r := by
  have hr : r.take j ++ r[j] :: r.drop (j + 1) = r := by
    rw [← List.drop_eq_getElem_cons hj, List.take_append_drop]
  have hne := crc16_ne_of_byte_ne (r.take j) (r.drop (j + 1)) hf
  rwa [hr, ← List.modify_eq_take_cons_drop (f := f) hj] at hne

/-- Flipping one of a byte's bits changes the byte. -/
theorem xor_bit_ne (b : Byte) {k : Nat} (hk : k < 8) : b ^^^ (1#8 <<< k) ≠ b := by
  intro heq
  have hbit := congrArg (fun v : Byte => v.getLsbD k) heq
  simp [hk] at hbit

/-- Settles O14: the flip keeps the length and makes the CRC of the sequence another than zero. -/
theorem singleBitErrorsAreDetected : Obligations.SingleBitErrorsAreDetected := by
  intro r j k hvalid hj hk
  have hlen := three_le_length_of_validate hvalid
  have hzero := (validate_iff_crc16_eq_zero hlen).mp hvalid
  rw [Bool.eq_false_iff, Ne, validate_iff_crc16_eq_zero (by rwa [List.length_modify]), ← hzero]
  exact crc16_modify_ne hj (xor_bit_ne r[j] hk)

end Sys2Proof.Machine
end

section
/-! SUPPORT. The frame encoder (41_frame_encoder R80 to R87): the range checks in numbers, the payloads byte by byte, what
a host reads of an emitted frame, and that a BUILD looks at its operands alone. -/

namespace Sys2Proof.Machine

/-- `addr_ok` of 41_frame_encoder R82 in numbers. -/
theorem addrOk_iff (s : State) : s.addrOk = true ↔ Claims.AddrInRange s := by
  simp [State.addrOk, inRange]

/-- The operations of a mission, slot by slot (41_frame_encoder R83). -/
theorem operations_eq (s : State) : s.operations =
    (if 0 < s.nops.toNat then [(s.work0, s.station0)] else []) ++
      (if 1 < s.nops.toNat then [(s.work1, s.station1)] else []) ++
        (if 2 < s.nops.toNat then [(s.work2, s.station2)] else []) := by
  rw [State.operations, State.slots]
  rcases s.nops.toNat with _ | _ | _ | n <;> simp

/-- `mission_ok` of 41_frame_encoder R82 in numbers: a slot is in range where NOPS reaches it. -/
theorem missionOk_iff (s : State) : s.missionOk = true ↔ Claims.MissionInRange s := by
  have hslot : ∀ (k : Nat) (work station : Byte),
      (if k < s.nops.toNat then [(work, station)] else []).all operationOk = true ↔
        (k < s.nops.toNat → work.toNat ≤ 2 ∧ 1 ≤ station.toNat) := by
    intro k work station
    split <;> simp_all [operationOk]
  simp only [State.missionOk, Claims.MissionInRange, operations_eq, List.all_append, Bool.and_eq_true, hslot, addrOk_iff,
    inRange, decide_eq_true_eq, and_assoc]

/-- A byte as a 16-bit field of a frame (20_memory R33). -/
theorem bigEndian_setWidth (b : Byte) : bigEndian (b.setWidth 16) = [0x00#8, b] := by
  have hhigh : highByte (b.setWidth 16) = 0x00#8 := by
    ext j hj
    simp [highByte]
  have hlow : lowByte (b.setWidth 16) = b := by
    ext j hj
    simp [lowByte, hj, show j < 16 by omega]
  rw [bigEndian, hhigh, hlow]

/-- An operation in a frame is its work code and then its station (30_encoding R60). -/
theorem bigEndian_operationValue (op : Byte × Byte) : bigEndian (operationValue op) = [op.1, op.2] := by
  have hhigh : highByte (operationValue op) = op.1 := by
    ext j hj
    simp [highByte, operationValue, hj, show 8 + j < 16 by omega]
  have hlow : lowByte (operationValue op) = op.2 := by
    ext j hj
    simp [lowByte, operationValue, hj, show j < 16 by omega]
  rw [bigEndian, hhigh, hlow]

/-- The bytes a mission's payload carries for its operations (30_encoding R56, R60). -/
theorem flatMap_operations (s : State) :
    s.operations.flatMap (fun op => bigEndian (operationValue op)) = Claims.operationBytes s := by
  have hslot : ∀ (k : Nat) (op : Byte × Byte),
      (if k < s.nops.toNat then [op] else []).flatMap (fun op => bigEndian (operationValue op)) =
        if k < s.nops.toNat then [op.1, op.2] else [] := by
    intro k op
    split <;> simp [bigEndian_operationValue]
  simp only [operations_eq, List.flatMap_append, hslot, Claims.operationBytes]

/-- The payload of format RTU-0x10 byte by byte (30_encoding R56); NOPS in range keeps the register count in one byte. -/
theorem missionPayload_eq {s : State} (h : s.nops.toNat ≤ 3) : s.missionPayload =
    [s.addr, 0x10#8, 0x00#8, 0x13#8, 0x00#8, BitVec.ofNat 8 (1 + s.nops.toNat),
      BitVec.ofNat 8 ((1 + s.nops.toNat) * 2), 0x00#8, s.opcnt] ++ Claims.operationBytes s := by
  have hregs : 1#16 + s.nops.setWidth 16 = (BitVec.ofNat 8 (1 + s.nops.toNat)).setWidth 16 := by
    apply BitVec.eq_of_toNat_eq
    simp only [BitVec.toNat_add, BitVec.toNat_setWidth, BitVec.toNat_ofNat]
    omega
  have hbytes : (1#8 + s.nops) * 2#8 = BitVec.ofNat 8 ((1 + s.nops.toNat) * 2) := by
    apply BitVec.eq_of_toNat_eq
    simp [BitVec.toNat_mul, BitVec.toNat_add]
  have hstart : bigEndian Config.missionStart = [0x00#8, 0x13#8] := rfl
  rw [State.missionPayload, hregs, hbytes, hstart, bigEndian_setWidth, bigEndian_setWidth, flatMap_operations]
  rfl

/-- The payload of format RTU-0x05 byte by byte (30_encoding R57). -/
theorem launchPayload_eq (s : State) : s.launchPayload = [s.addr, 0x05#8, 0x01#8, 0x0F#8, 0xFF#8, 0x00#8] := rfl

/-- The payload of format RTU-0x02 byte by byte (30_encoding R58). -/
theorem readTorPayload_eq (s : State) : s.readTorPayload = [s.addr, 0x02#8, 0x01#8, 0x0F#8, 0x00#8, 0x11#8] := rfl

/-- Below TXLEN a host reads what TXBUF holds (20_memory R45). -/
theorem frameRead_eq_txFrame (t : State) : Claims.frameRead t = t.txFrame := by
  rw [Claims.frameRead, State.txFrame]
  exact List.map_congr_left fun i hi => if_pos (List.mem_range.mp hi)

/-- Below TXLEN a host reads the frame emitted last (41_frame_encoder R81). -/
theorem frameRead_emit (s : State) {p : List Byte} (h : p.length + 2 < 256) : Claims.frameRead (s.emit p) = withCrc p := by
  rw [frameRead_eq_txFrame, txFrame_emit s p h]

/-- With TXLEN 0 there is no frame to read. -/
theorem frameRead_failBuild (s : State) (k : FaultKind) : Claims.frameRead (s.failBuild k) = [] := by
  simp [Claims.frameRead]

/-- Emitting a payload writes its frame and nothing else (41_frame_encoder R81). -/
theorem wroteFrame_emit (s : State) {p : List Byte} (h : p.length + 2 < 256) : Claims.WroteFrame s (s.emit p) p := by
  refine ⟨toNat_txlen_emit s p h, ?_, fun i hi => ?_, rfl⟩
  · rw [frameRead_emit s h, withCrc, crcBytes_eq_littleEndian]
  · rw [txByte_emit, length_withCrc, if_neg (by omega)]

/-- A BUILD variant whose range check passes writes its frame (41_frame_encoder R81). -/
theorem buildFrame_writes {ok : Bool} {p : List Byte} (s : State) (hok : ok = true) (h : p.length + 2 < 256) :
    ∃ t, buildFrame ok p s = .next t ∧ Claims.WroteFrame s t p := by
  subst hok
  exact ⟨s.emit p, buildFrame_ok p s, wroteFrame_emit s h⟩

/-- A BUILD variant whose range check fails leaves TXLEN 0 and ERR_RANGE (41_frame_encoder R82). -/
theorem buildFrame_of_not_ok {ok : Bool} {p : List Byte} (s : State) (hok : ¬ ok = true) :
    buildFrame ok p s = .next { s with txlen := 0x00#8, errRange := true, builds := s.builds + 1 } := by
  rw [Bool.eq_false_iff.mpr hok, buildFrame_fault]
  rfl

/-- BUILD_MISSION in full (41_frame_encoder R83). -/
theorem exec_buildMission (s : State) : exec .buildMission s = buildFrame s.missionOk s.missionPayload s := rfl

/-- BUILD_LAUNCH in full (41_frame_encoder R84). -/
theorem exec_buildLaunch (s : State) : exec .buildLaunch s = buildFrame s.addrOk s.launchPayload s := rfl

/-- BUILD_READ_TOR in full (41_frame_encoder R85). -/
theorem exec_buildReadTor (s : State) : exec .buildReadTor s = buildFrame s.addrOk s.readTorPayload s := rfl

/-- Settles O15: the range check in numbers decides, and the payload emitted is the one of R56. -/
theorem buildMissionWritesTheMissionFrame : Obligations.BuildMissionWritesTheMissionFrame := by
  refine ⟨fun s hs => ?_,
    fun s hs => (exec_buildMission s).trans (buildFrame_of_not_ok s (mt (missionOk_iff s).mp hs)), by decide⟩
  have ⟨_, _, ⟨_, hnops⟩, _⟩ := hs
  have hlen := length_missionPayload s
  obtain ⟨t, ht, hwrote⟩ := buildFrame_writes s ((missionOk_iff s).mpr hs) (p := s.missionPayload) (by omega)
  have ⟨htxlen, _⟩ := hwrote
  exact ⟨t, (exec_buildMission s).trans ht, by omega, missionPayload_eq hnops ▸ hwrote⟩

/-- A BUILD variant that checks ADDR alone and has a payload of 6 bytes: R84 and R85 are two of them. -/
theorem addressed_build_spec (i : Instr) (p : State → List Byte) (hexec : ∀ s, exec i s = buildFrame s.addrOk (p s) s)
    (hlen : ∀ s, (p s).length = 6) :
    (∀ s, Claims.AddrInRange s → ∃ t, exec i s = .next t ∧ t.txlen = 8#8 ∧ Claims.WroteFrame s t (p s)) ∧
      ∀ s, ¬ Claims.AddrInRange s →
        exec i s = .next { s with txlen := 0x00#8, errRange := true, builds := s.builds + 1 } := by
  refine ⟨fun s hs => ?_, fun s hs => ?_⟩
  · obtain ⟨t, ht, hwrote⟩ := buildFrame_writes s ((addrOk_iff s).mpr hs) (p := p s) (by rw [hlen]; decide)
    have ⟨htxlen, _⟩ := hwrote
    rw [hlen] at htxlen
    exact ⟨t, (hexec s).trans ht, BitVec.eq_of_toNat_eq htxlen, hwrote⟩
  · exact (hexec s).trans (buildFrame_of_not_ok s (mt (addrOk_iff s).mp hs))

/-- Settles O16: the check of ADDR decides, and the payload emitted is the one of R57. -/
theorem buildLaunchWritesTheLaunchFrame : Obligations.BuildLaunchWritesTheLaunchFrame := by
  obtain ⟨hok, hfault⟩ := addressed_build_spec .buildLaunch State.launchPayload exec_buildLaunch length_launchPayload
  exact ⟨fun s hs => launchPayload_eq s ▸ hok s hs, hfault, by decide⟩

/-- Settles O17: the check of ADDR decides, and the payload emitted is the one of R58. -/
theorem buildReadTorWritesTheReadFrame : Obligations.BuildReadTorWritesTheReadFrame := by
  obtain ⟨hok, hfault⟩ := addressed_build_spec .buildReadTor State.readTorPayload exec_buildReadTor length_readTorPayload
  exact ⟨fun s hs => readTorPayload_eq s ▸ hok s hs, hfault, by decide⟩

/-- A BUILD issued with the function code of a variant is that variant (41_frame_encoder R80). -/
theorem exec_wr_build_of_fc {s : State} {fc : Byte} {i : Instr} (hfc : s.fc = fc)
    (hkey : decode (.key (makeKey fc 0x04#8)) = .ok i) : exec (.wr 0x000#9 0x04#8) s = exec i s := by
  subst hfc
  exact (exec_wr_cmd _ s).trans (runCommand_of_decodeKey hkey)

/-- Settles O18: the key of each variant decodes to it, any other FC fails, and neither effect of a BUILD writes VALID. -/
theorem buildDispatchesOnTheFunctionCode : Obligations.BuildDispatchesOnTheFunctionCode := by
  refine ⟨fun s hfc => exec_wr_build_of_fc hfc (by decide), fun s hfc => exec_wr_build_of_fc hfc (by decide),
    fun s hfc => exec_wr_build_of_fc hfc (by decide), fun s h10 h05 h02 => runBuild_of_unsupported h10 h05 h02, ?_⟩
  intro s t h
  rcases runBuild_effect h with ⟨p, rfl, _⟩ | ⟨k, rfl⟩
  · exact State.emit_valid s p
  · exact State.failBuild_valid s k

/-- Settles O19: a BUILD that leaves a frame emitted a payload, and a payload with its CRC validates. -/
theorem builtFramesValidate : Obligations.BuiltFramesValidate := by
  intro s t h htxlen
  rcases runBuild_effect h with ⟨p, rfl, hlen⟩ | ⟨k, rfl⟩
  · rw [frameRead_emit s (by omega)]
    exact validate_withCrc (List.length_pos_iff.mp (by omega))
  · exact absurd (State.failBuild_txlen s k) htxlen

/-- BUILD variants with one range check and one payload leave one frame, whatever the states before are. -/
theorem buildFrame_congr {ok ok' : Bool} {p p' : List Byte} {s u t v : State} (hok : ok = ok') (hp : p = p')
    (hlen : p.length + 2 < 256) (hs : buildFrame ok p s = .next t) (hu : buildFrame ok' p' u = .next v) :
    t.txlen = v.txlen ∧ Claims.frameRead t = Claims.frameRead v := by
  subst hok hp
  cases ok with
  | true =>
    cases hs
    cases hu
    exact ⟨rfl, by rw [frameRead_emit s hlen, frameRead_emit u hlen]⟩
  | false =>
    cases hs
    cases hu
    exact ⟨rfl, by rw [frameRead_failBuild, frameRead_failBuild]⟩

/-- Slots at or past NOPS are no operations of a mission (41_frame_encoder R87). -/
theorem operations_congr {s u : State} (hnops : s.nops = u.nops)
    (h0 : 0 < s.nops.toNat → s.work0 = u.work0 ∧ s.station0 = u.station0)
    (h1 : 1 < s.nops.toNat → s.work1 = u.work1 ∧ s.station1 = u.station1)
    (h2 : 2 < s.nops.toNat → s.work2 = u.work2 ∧ s.station2 = u.station2) : s.operations = u.operations := by
  have hslot : ∀ {k : Nat} {w w' st st' : Byte}, (k < s.nops.toNat → w = w' ∧ st = st') →
      (if k < s.nops.toNat then [(w, st)] else []) = if k < s.nops.toNat then [(w', st')] else [] := by
    intro k w w' st st' h
    split
    · next hk =>
      obtain ⟨rfl, rfl⟩ := h hk
      rfl
    · rfl
  rw [operations_eq, operations_eq, ← hnops, hslot h0, hslot h1, hslot h2]

/-- Settles O20: equal operands give one range check and one payload under each FC, and no frame under any other. -/
theorem buildDependsOnItsOperandsAlone : Obligations.BuildDependsOnItsOperandsAlone := by
  intro s u t v hfc haddr hmission hs hu
  have haddrOk : s.addrOk = u.addrOk := by rw [State.addrOk, State.addrOk, haddr]
  rcases runBuild_cases hs with ⟨h10, hs⟩ | ⟨h05, hs⟩ | ⟨h02, hs⟩ | ⟨h10, h05, h02, rfl⟩
  · obtain ⟨hopcnt, hnops, h0, h1, h2⟩ := hmission h10
    have hops := operations_congr hnops h0 h1 h2
    have hok : s.missionOk = u.missionOk := by
      rw [State.missionOk, State.missionOk, haddrOk, hopcnt, hnops, hops]
    have hp : s.missionPayload = u.missionPayload := by
      rw [State.missionPayload, State.missionPayload, haddr, hopcnt, hnops, hops]
    rw [exec_wr_build_of_fc (i := .buildMission) (hfc ▸ h10) (by decide)] at hu
    exact buildFrame_congr hok hp (by rw [length_missionPayload]; omega) hs hu
  · rw [exec_wr_build_of_fc (i := .buildLaunch) (hfc ▸ h05) (by decide)] at hu
    exact buildFrame_congr haddrOk (by rw [launchPayload_eq, launchPayload_eq, haddr]) (by simp) hs hu
  · rw [exec_wr_build_of_fc (i := .buildReadTor) (hfc ▸ h02) (by decide)] at hu
    exact buildFrame_congr haddrOk (by rw [readTorPayload_eq, readTorPayload_eq, haddr]) (by simp) hs hu
  · rw [exec_wr_cmd, runCommand_build, runBuild_of_unsupported (hfc ▸ h10) (hfc ▸ h05) (hfc ▸ h02)] at hu
    cases hu
    exact ⟨rfl, by rw [frameRead_failBuild, frameRead_failBuild]⟩

end Sys2Proof.Machine
end

section
/-! SUPPORT. The response validator (42_validator R90 to R95): its test in numbers, VALIDATE in its three cases, and the
frame of a BUILD looped back into RXBUF. -/

namespace Sys2Proof.Machine

/-- A word put together from its high and its low byte, in numbers (42_validator R90). -/
theorem toNat_shiftLeft_or (x y : Byte) :
    ((y.setWidth 16 <<< 8) ||| x.setWidth 16 : U16).toNat = y.toNat * 256 + x.toNat := by
  obtain ⟨hhigh, hlow⟩ : highByte (operationValue (y, x)) = y ∧ lowByte (operationValue (y, x)) = x := by
    simpa [bigEndian] using bigEndian_operationValue (y, x)
  have hword := toNat_highByte_lowByte (operationValue (y, x))
  rw [hhigh, hlow] at hword
  exact hword.symm

/-- Settles O21: the bound of 3 bytes, then the comparison of the CRC with the last two bytes as a word. -/
theorem validateTestsLengthAndLittleEndianCrc : Obligations.ValidateTestsLengthAndLittleEndianCrc := by
  refine ⟨fun r hshort => if_pos hshort, fun d x y hd => ?_⟩
  rw [validate_append_pair hd, beq_iff_eq, ← BitVec.toNat_inj, toNat_shiftLeft_or]

/-- The claims' reading of a known response is the model's. -/
theorem responseKnown_iff_claim (s : State) : s.responseKnown = true ↔ Claims.ResponseKnown s := by
  rw [responseKnown_iff, rxWritten_iff]

/-- VALIDATE within the bound leaves an unknown VALID where its test would read a byte nothing has written
(20_memory R45). -/
theorem execValidate_unknown {s : State} (hlen : s.rxlen.toNat ≤ 256) (hk : ¬ s.responseKnown = true) :
    execValidate s =
      .next { s with valid := Config.unknownValid s.validDraws s.rxFrame, validDraws := s.validDraws + 1 } := by
  rw [execValidate, if_neg (Nat.not_lt.mpr hlen), if_neg hk]

/-- VALIDATE past the bound leaves VALID 0 and raises ERR_RANGE (42_validator R91, 60_exceptions R113). -/
theorem execValidate_over {s : State} (hlen : 256 < s.rxlen.toNat) :
    execValidate s = .next { s with valid := false, errRange := true } :=
  if_pos hlen

/-- Settles O22: the three cases of VALIDATE, and code 0x08 decodes to it under every FC. -/
theorem validateCommandSetsValidFromRxbuf : Obligations.ValidateCommandSetsValidFromRxbuf := by
  have hkey : ∀ fc, decode (.key (makeKey fc 0x08#8)) = .ok .validate :=
    fun fc => decodeOfEncodeIsTheInstruction fc .validate rfl
  refine ⟨fun s hlen hknown => ?_, fun s hlen hunknown => ?_, fun s hover => execValidate_over hover,
    exec_wr_cmd_of_decode hkey, hkey⟩
  · exact execValidate_known hlen ((responseKnown_iff_claim s).mpr hknown)
  · exact ⟨_, execValidate_unknown hlen (mt (responseKnown_iff_claim s).mp hunknown)⟩

/-- The response has RXLEN bytes (10_state R17). -/
theorem length_rxFrame (s : State) : s.rxFrame.length = s.rxlen.toNat := by
  simp [State.rxFrame]

/-- Settles O23: on a known response VALID is the validator's answer, which from 3 bytes on is the residue test. -/
theorem validEqualsZeroResidue : Obligations.ValidEqualsZeroResidue := by
  intro s t hmin hmax hknown h
  have ⟨_, hvalid⟩ := valid_of_execValidate h
  rw [hvalid hmax hknown]
  exact validate_iff_crc16_eq_zero ((length_rxFrame s).symm ▸ hmin)

/-- A host reads TXLEN bytes of a frame (10_state R15). -/
theorem length_frameRead (t : State) : (Claims.frameRead t).length = t.txlen.toNat := by
  simp [Claims.frameRead]

/-- A BUILD that leaves TXLEN not 0 emitted a frame (41_frame_encoder R80, R82). -/
theorem exists_emit_of_runBuild {s t : State} (h : runBuild s = .next t) (htxlen : t.txlen ≠ 0x00#8) :
    ∃ p, t = s.emit p := by
  rcases runBuild_effect h with ⟨p, ht, _⟩ | ⟨k, rfl⟩
  · exact ⟨p, ht⟩
  · exact absurd (State.failBuild_txlen s k) htxlen

/-- The fault bits depend on the three sticky elements alone (10_state R19). -/
theorem faultBit_congr {s u : State} (hillegal : u.errIllegal = s.errIllegal) (hfunc : u.errFunc = s.errFunc)
    (hrange : u.errRange = s.errRange) (k : FaultKind) : u.faultBit k = s.faultBit k := by
  cases k with
  | errIllegal => exact hillegal
  | errFunc => exact hfunc
  | errRange => exact hrange

/-- Settles O26: the run ends with the validator's answer on the frame a BUILD emitted, and neither the BUILD nor the
run touches REFUSED or a fault bit. -/
theorem loopedBackFramesAlwaysValidate : Obligations.LoopedBackFramesAlwaysValidate := by
  intro s t rest h htxlen hp
  have hvalid := builtFramesValidate s t h htxlen
  have hlen := length_frameRead t
  have hrun := run_loadrx_validate (Claims.frameRead t) t rest (by omega) hp
  rw [hlen] at hrun
  obtain ⟨p, rfl⟩ := exists_emit_of_runBuild h htxlen
  exact ⟨_, hrun, hvalid, rfl, rfl, faultBit_congr rfl rfl rfl⟩

end Sys2Proof.Machine
end

section
/-! SUPPORT. The host transactions at every address (43_host_access R100 to R104): the registers that are put together
from parts in numbers, what a write and a read leave by the register they reach, and the accesses without meaning. -/

namespace Sys2Proof.Machine

/-- The low byte of a 16-bit register in numbers (20_memory R32). -/
theorem lowByte_eq_ofNat (v : U16) : lowByte v = BitVec.ofNat 8 (v.toNat % 256) :=
  BitVec.eq_of_toNat_eq (by simp [lowByte])

/-- The high byte of a 16-bit register in numbers (20_memory R32). -/
theorem highByte_eq_ofNat (v : U16) : highByte v = BitVec.ofNat 8 (v.toNat / 256) :=
  BitVec.eq_of_toNat_eq (by simp [highByte, Nat.shiftRight_eq_div_pow])

/-- STATUS is its four bits with their weights (10_state R20). -/
theorem statusByte_eq_ofNat (s : State) : s.statusByte =
    BitVec.ofNat 8 (s.valid.toNat + 2 * s.errIllegal.toNat + 4 * s.errFunc.toNat + 8 * s.errRange.toNat) := by
  rw [State.statusByte]
  generalize s.valid = v, s.errIllegal = i, s.errFunc = f, s.errRange = r
  revert v i f r
  decide

/-- A 9-bit RXLEN put together from its two halves, in numbers (10_state R17). -/
theorem toNat_rxlen_append (hi : BitVec 1) (lo : Byte) : (hi ++ lo : BitVec 9).toNat = hi.toNat * 256 + lo.toNat := by
  rw [BitVec.toNat_append, ← Nat.shiftLeft_add_eq_or_of_lt lo.isLt, Nat.shiftLeft_eq]

/-- The top bit of RXLEN in numbers (10_state R17). -/
theorem toNat_rxlen_topBit (v : BitVec 9) : (v.extractLsb' 8 1).toNat = v.toNat / 256 := by
  rw [BitVec.extractLsb'_toNat, Nat.shiftRight_eq_div_pow]
  omega

/-- A store to RXLEN_LO keeps the top bit (43_host_access R103). -/
theorem rxlen_storeLow (v : BitVec 9) (d : Byte) :
    (v.extractLsb' 8 1 ++ d : BitVec 9) = BitVec.ofNat 9 (v.toNat / 256 * 256 + d.toNat) := by
  apply BitVec.eq_of_toNat_eq
  rw [toNat_rxlen_append, toNat_rxlen_topBit, BitVec.toNat_ofNat]
  omega

/-- A store to RXLEN_HI takes bit 0 of the byte and keeps the low byte (43_host_access R103). -/
theorem rxlen_storeHigh (v : BitVec 9) (d : Byte) :
    (d.extractLsb' 0 1 ++ v.extractLsb' 0 8 : BitVec 9) = BitVec.ofNat 9 (d.toNat % 2 * 256 + v.toNat % 256) := by
  apply BitVec.eq_of_toNat_eq
  simp only [toNat_rxlen_append, BitVec.extractLsb'_toNat, Nat.shiftRight_zero, BitVec.toNat_ofNat]
  omega

/-- RXLEN_LO in numbers (10_state R17). -/
theorem rxlenLo_eq_ofNat (v : BitVec 9) : v.extractLsb' 0 8 = BitVec.ofNat 8 (v.toNat % 256) :=
  BitVec.eq_of_toNat_eq (by simp)

/-- RXLEN_HI in numbers (10_state R17). -/
theorem rxlenHi_eq_ofNat (v : BitVec 9) : (0#7 ++ v.extractLsb' 8 1 : Byte) = BitVec.ofNat 8 (v.toNat / 256) := by
  apply BitVec.eq_of_toNat_eq
  rw [BitVec.toNat_append, toNat_rxlen_topBit, BitVec.toNat_ofNat]
  simp only [BitVec.toNat_ofNat, Nat.zero_mod, Nat.zero_shiftLeft, Nat.zero_or]
  omega

/-- A write that reaches neither CMD nor a register that takes a byte is refused (43_host_access R100). -/
theorem execWr_of_unwritable {a : Addr} {d : Byte} {s : State} (hcmd : regOf a ≠ some .cmd)
    (h : ((regOf a).bind fun r => s.storeReg r d) = none) : execWr a d s = .next s.markRefused := by
  unfold execWr
  split
  · rfl
  · next hr => exact absurd hr hcmd
  · next r _ hr =>
    have hstore : s.storeReg r d = none := by simpa [hr] using h
    rw [hstore, refuse_next]

/-- An address the host may not write is not CMD's, and no store reaches it (20_memory R31, 60_exceptions R114). -/
theorem storeReg_of_notWritable {a : Addr} (h : Claims.NotWritable a) (s : State) (d : Byte) :
    regOf a ≠ some .cmd ∧ ((regOf a).bind fun r => s.storeReg r d) = none := by
  rcases h with rfl | rfl | rfl | rfl | ⟨hlo, hhi⟩
  case inr.inr.inr.inr =>
    rw [regOf_of_le hlo]
    split_ifs with htx hrx
    · exact ⟨by simp, rfl⟩
    · omega
    · exact ⟨by simp, rfl⟩
  all_goals exact ⟨by decide, rfl⟩

/-- An address the host may not read has no readable register (20_memory R31, 60_exceptions R114). -/
theorem loadReg_of_notReadable {a : Addr} (h : Claims.NotReadable a) (s : State) : (regOf a).bind s.loadReg = none := by
  rcases h with rfl | hunmapped
  · rfl
  · rw [(regOf_eq_none_iff a).mpr hunmapped, Option.bind_none]

/-- A read of a register by its address returns its byte and changes nothing else (43_host_access R101). -/
theorem exec_rd_addrOf {r : RegName} {b : Byte} {s : State} (h : s.loadReg r = some b) :
    exec (.rd (addrOf r) 0x00#8) s = .next { s with reads := s.reads ++ [b] } :=
  execRd_of_loadReg (regOf_addrOf r) h

/-- The address of an RXBUF byte by its index (20_memory R31). -/
theorem addrOf_rxbuf_ofNat {i : Nat} (hi : i < 256) :
    addrOf (.rxbuf (BitVec.ofNat 8 i)) = BitVec.ofNat 9 (0x100 + i) := by
  rw [addrOf, BitVec.toNat_ofNat, Nat.mod_eq_of_lt hi]

/-- A write of RXBUF stores its byte in the buffer (43_host_access R100). -/
theorem exec_wr_rxbuf (s : State) {i : Nat} (hi : i < 256) (d : Byte) :
    exec (.wr (BitVec.ofNat 9 (0x100 + i)) d) s = .next { s with rxbuf := s.rxbuf.write i d } := by
  rw [← addrOf_rxbuf_ofNat hi, exec_wr_addrOf (storeReg_rxbuf s hi d)]

/-- RXBUF after a store of one of its bytes (10_state R16). -/
theorem rxByte_write (s : State) (i j : Nat) (d : Byte) :
    State.rxByte { s with rxbuf := s.rxbuf.write i d } j = if j = i then d else s.rxByte j := by
  rw [State.rxByte, Memory.read_write]
  split_ifs
  · rfl
  · rfl

/-- Settles O29: a store by the register at the address, with RXLEN in numbers; a refusal where no store reaches. -/
theorem writeActsByAddress : Obligations.WriteActsByAddress := by
  refine ⟨fun s d => exec_wr_cmd d s, fun _ _ => exec_wr_addrOf (r := .din) rfl, fun _ _ => exec_wr_addrOf (r := .fc) rfl,
    fun _ _ => exec_wr_addrOf (r := .addr) rfl, fun _ _ => exec_wr_addrOf (r := .opcnt) rfl,
    fun _ _ => exec_wr_addrOf (r := .nops) rfl, fun _ _ => exec_wr_addrOf (r := .work0) rfl,
    fun _ _ => exec_wr_addrOf (r := .station0) rfl, fun _ _ => exec_wr_addrOf (r := .work1) rfl,
    fun _ _ => exec_wr_addrOf (r := .station1) rfl, fun _ _ => exec_wr_addrOf (r := .work2) rfl,
    fun _ _ => exec_wr_addrOf (r := .station2) rfl, fun s d => ?_, fun s d => ?_, fun s d i hi => ?_, fun s a d h => ?_⟩
  · rw [← rxlen_storeLow]
    exact exec_wr_addrOf (r := .rxlenLo) rfl
  · rw [← rxlen_storeHigh]
    exact exec_wr_addrOf (r := .rxlenHi) rfl
  · exact ⟨_, exec_wr_rxbuf s hi d, (rxByte_write s i i d).trans (if_pos rfl),
      fun j hj => (rxByte_write s i j d).trans (if_neg hj), rfl⟩
  · obtain ⟨hcmd, hstore⟩ := storeReg_of_notWritable h s d
    exact execWr_of_unwritable hcmd hstore

/-- A read of TXBUF returns the byte a host reads there (43_host_access R101). -/
theorem exec_rd_txbuf (s : State) {i : Nat} (hi : i < 17) :
    exec (.rd (BitVec.ofNat 9 (0x020 + i)) 0x00#8) s = .next { s with reads := s.reads ++ [s.txRead i] } :=
  exec_rd_addrOf (r := .txbuf ⟨i, hi⟩) rfl

/-- A read of RXBUF returns the byte it holds (43_host_access R101). -/
theorem exec_rd_rxbuf (s : State) {i : Nat} (hi : i < 256) :
    exec (.rd (BitVec.ofNat 9 (0x100 + i)) 0x00#8) s = .next { s with reads := s.reads ++ [s.rxByte i] } := by
  have hidx : (BitVec.ofNat 8 i).toNat = i := Nat.mod_eq_of_lt hi
  have hload : s.loadReg (.rxbuf (BitVec.ofNat 8 i)) = some (s.rxByte i) := by rw [State.loadReg, hidx]
  rw [← addrOf_rxbuf_ofNat hi, exec_rd_addrOf hload]

/-- Settles O31: the byte of the register at the address, with the packed registers in numbers; a refusal where no
register is readable or a data byte is given. -/
theorem readReturnsByAddress : Obligations.ReadReturnsByAddress := by
  refine ⟨fun s => ?_, fun s => ?_, fun s => ?_, fun _ => exec_rd_addrOf (r := .din) rfl,
    fun _ => exec_rd_addrOf (r := .fc) rfl, fun _ => exec_rd_addrOf (r := .addr) rfl,
    fun _ => exec_rd_addrOf (r := .opcnt) rfl, fun _ => exec_rd_addrOf (r := .nops) rfl,
    fun _ => exec_rd_addrOf (r := .work0) rfl, fun _ => exec_rd_addrOf (r := .station0) rfl,
    fun _ => exec_rd_addrOf (r := .work1) rfl, fun _ => exec_rd_addrOf (r := .station1) rfl,
    fun _ => exec_rd_addrOf (r := .work2) rfl, fun _ => exec_rd_addrOf (r := .station2) rfl,
    fun _ => exec_rd_addrOf (r := .txlen) rfl, fun s => ?_, fun s => ?_, fun s i hi hbelow => ?_,
    fun s i hi _ => ⟨_, exec_rd_txbuf s hi⟩, fun s i hi => exec_rd_rxbuf s hi,
    fun s a h => execRd_of_unreadable (loadReg_of_notReadable h s), fun s a d hd => if_pos hd⟩
  · exact exec_rd_addrOf (r := .status) (congrArg some (statusByte_eq_ofNat s))
  · exact exec_rd_addrOf (r := .crcLo) (congrArg some (lowByte_eq_ofNat s.crc))
  · exact exec_rd_addrOf (r := .crcHi) (congrArg some (highByte_eq_ofNat s.crc))
  · exact exec_rd_addrOf (r := .rxlenLo) (congrArg some (rxlenLo_eq_ofNat s.rxlen))
  · exact exec_rd_addrOf (r := .rxlenHi) (congrArg some (rxlenHi_eq_ofNat s.rxlen))
  · have hframe : s.txRead i = s.txByte i := if_pos hbelow
    rw [exec_rd_txbuf s hi, hframe]

/-- Settles O30: the two case splits, on the code and on FC, and what the two faults leave. -/
theorem commandWriteRunsItsCode : Obligations.CommandWriteRunsItsCode := by
  intro s d
  rw [exec_wr_cmd, runCommand, runBuild]
  rfl

end Sys2Proof.Machine
end

section
/-! SUPPORT. Which marks one transaction leaves (60_exceptions R110 to R117): what an instruction can do to the fault bits
and to REFUSED, said once. -/

namespace Sys2Proof.Machine

/-- `t` has the marks of `s` and, beside them, the fault bit that `f` names, if any; the queue is the same. -/
def Raises (f : Option FaultKind) (s t : State) : Prop :=
  t.pending = s.pending ∧ t.refused = s.refused ∧ ∀ k, t.faultBit k = (decide (f = some k) || s.faultBit k)

/-- An access that 60_exceptions R114 gives no meaning. -/
def Meaningless (w : HTWord) : Prop :=
  (htWrite w = true ∧ Claims.NotWritable (htAddr w)) ∨ (htWrite w = false ∧ Claims.NotReadable (htAddr w)) ∨
    (htWrite w = false ∧ htData w ≠ 0x00#8)

/-- A state with the same queue, REFUSED and fault bits raises nothing. -/
theorem raises_none {s t : State} (hpending : t.pending = s.pending) (hrefused : t.refused = s.refused)
    (hillegal : t.errIllegal = s.errIllegal) (hfunc : t.errFunc = s.errFunc) (hrange : t.errRange = s.errRange) :
    Raises none s t :=
  ⟨hpending, hrefused, fun k => by simp [faultBit_congr hillegal hfunc hrange k]⟩

/-- `raise Fault(kind)` raises its kind (60_exceptions R110). -/
theorem raises_raiseFault (s : State) (k : FaultKind) : Raises (some k) s (s.raiseFault k) :=
  ⟨State.raiseFault_pending s k, State.raiseFault_refused s k,
    fun j => by simp [State.faultBit_raiseFault, eq_comm]⟩

/-- A BUILD that faults raises the kind of its fault (41_frame_encoder R80, R82). -/
theorem raises_failBuild (s : State) (k : FaultKind) : Raises (some k) s (s.failBuild k) :=
  ⟨State.failBuild_pending s k, State.failBuild_refused s k,
    fun j => by simp [State.faultBit_failBuild, eq_comm]⟩

/-- A BUILD that emits a frame raises nothing (41_frame_encoder R81). -/
theorem raises_emit (s : State) (p : List Byte) : Raises none s (s.emit p) :=
  raises_none rfl rfl rfl rfl rfl

/-- The fault bit that a transition turns on is the one it raises. -/
theorem Raises.eq_some_of_ne {f : Option FaultKind} {s t : State} (h : Raises f s t) {k : FaultKind}
    (hne : t.faultBit k ≠ s.faultBit k) : f = some k := by
  obtain ⟨_, _, hbits⟩ := h
  by_contra hf
  exact hne (by simp [hbits, hf])

/-- A BUILD variant raises ERR_RANGE or nothing (41_frame_encoder R82). -/
theorem raises_of_buildFrame {ok : Bool} {p : List Byte} {s t : State} (h : buildFrame ok p s = .next t) :
    ∃ f, Raises f s t := by
  rcases buildFrame_cases h with ⟨_, rfl⟩ | ⟨_, rfl⟩
  · exact ⟨_, raises_emit s p⟩
  · exact ⟨_, raises_failBuild s .errRange⟩

/-- VALIDATE raises ERR_RANGE or nothing (42_validator R91). -/
theorem raises_of_execValidate {s t : State} (h : execValidate s = .next t) : ∃ f, Raises f s t := by
  rcases execValidate_cases h with ⟨_, rfl⟩ | ⟨_, _, rfl⟩ | ⟨_, _, rfl⟩
  · exact ⟨_, raises_raiseFault { s with valid := false } .errRange⟩
  · exact ⟨_, raises_none rfl rfl rfl rfl rfl⟩
  · exact ⟨_, raises_none rfl rfl rfl rfl rfl⟩

/-- A command raises at most one fault (60_exceptions R115). -/
theorem raises_of_runCommand {code : Byte} {s t : State} (h : runCommand code s = .next t) : ∃ f, Raises f s t := by
  rcases runCommand_cases h with ⟨_, rfl⟩ | ⟨_, rfl⟩ | ⟨_, hbuild⟩ | ⟨_, hval⟩ | ⟨_, _, _, _, rfl⟩
  · exact ⟨_, raises_none rfl rfl rfl rfl rfl⟩
  · exact ⟨_, raises_none rfl rfl rfl rfl rfl⟩
  · rcases runBuild_effect hbuild with ⟨p, rfl, _⟩ | ⟨k, rfl⟩
    · exact ⟨_, raises_emit s p⟩
    · exact ⟨_, raises_failBuild s k⟩
  · exact raises_of_execValidate hval
  · exact ⟨_, raises_raiseFault s .errIllegal⟩

/-- A store raises nothing (43_host_access R100). -/
theorem raises_of_storeReg {r : RegName} {d : Byte} {s t : State} (h : s.storeReg r d = some t) : Raises none s t := by
  obtain ⟨_, _, _, _, hillegal, hfunc, hrange, hrefused, _, hpending, _⟩ := storeReg_frame h
  exact raises_none hpending hrefused hillegal hfunc hrange

/-- The addresses that a write finds neither CMD nor a writable register at are those of R114 (20_memory R31). -/
theorem notWritable_of_storeReg {a : Addr} {s : State} {d : Byte}
    (hnone : ((regOf a).bind fun r => s.storeReg r d) = none) (hcmd : regOf a ≠ some .cmd) : Claims.NotWritable a := by
  rcases hr : regOf a with _ | r
  · have hunmapped := (regOf_eq_none_iff a).mp hr
    exact .inr (.inr (.inr (.inr (by omega))))
  · obtain rfl := addrOf_of_regOf a r hr
    rw [hr, Option.bind_some] at hnone
    cases r with
    | cmd => exact absurd hr hcmd
    | status | crcLo | crcHi | txlen => decide
    | txbuf i =>
      refine .inr (.inr (.inr (.inr ?_)))
      simp only [addrOf, BitVec.toNat_ofNat]
      omega
    | _ => cases hnone

/-- The addresses that a read finds no readable register at are those of R114 (20_memory R31). -/
theorem notReadable_of_loadReg {a : Addr} {s : State} (hnone : (regOf a).bind s.loadReg = none) :
    Claims.NotReadable a := by
  rcases hr : regOf a with _ | r
  · exact .inr ((regOf_eq_none_iff a).mp hr)
  · obtain rfl := addrOf_of_regOf a r hr
    rw [hr, Option.bind_some] at hnone
    cases r with
    | cmd => exact .inl rfl
    | _ => cases hnone

/-- A write is refused at an address the host may not write, or raises at most one fault. -/
theorem marks_of_execWr {a : Addr} {d : Byte} {s t : State} (h : execWr a d s = .next t) :
    (Claims.NotWritable a ∧ t = s.markRefused) ∨ ∃ f, Raises f s t := by
  rcases execWr_cases h with ⟨_, hcommand⟩ | ⟨r, _, _, hstore⟩ | ⟨hnone, hcmd, rfl⟩
  · exact .inr (raises_of_runCommand hcommand)
  · exact .inr ⟨_, raises_of_storeReg hstore⟩
  · exact .inl ⟨notWritable_of_storeReg hnone hcmd, rfl⟩

/-- A read is refused for its data byte or its address, or raises nothing. -/
theorem marks_of_execRd {a : Addr} {d : Byte} {s t : State} (h : execRd a d s = .next t) :
    ((d ≠ 0x00#8 ∨ Claims.NotReadable a) ∧ t = s.markRefused) ∨ Raises none s t := by
  rcases execRd_cases h with ⟨_, _, b, _, _, rfl⟩ | ⟨hwhy, rfl⟩
  · exact .inr (raises_none rfl rfl rfl rfl rfl)
  · exact .inl ⟨hwhy.imp_right notReadable_of_loadReg, rfl⟩

/-- Every instruction is refused or raises at most one fault (60_exceptions R114, R115). -/
theorem marks_of_exec {i : Instr} {s t : State} (h : exec i s = .next t) :
    t = s.markRefused ∨ ∃ f, Raises f s t := by
  cases i with
  | crcInit => exact .inr (raises_of_runCommand (code := 0x01#8) h)
  | crcUpdate => exact .inr (raises_of_runCommand (code := 0x02#8) h)
  | validate => exact .inr (raises_of_execValidate h)
  | buildMission => exact .inr (raises_of_buildFrame h)
  | buildLaunch => exact .inr (raises_of_buildFrame h)
  | buildReadTor => exact .inr (raises_of_buildFrame h)
  | wr a d => exact (marks_of_execWr h).imp_left And.right
  | rd a d => exact (marks_of_execRd h).imp And.right fun hraises => ⟨_, hraises⟩

/-- Settles O36: an instruction raises at most the one fault that `marks_of_exec` names, and the priorities are the order
of the checks of `runCommand` and `runBuild`. -/
theorem atMostOneFaultPerTransaction : Obligations.AtMostOneFaultPerTransaction := by
  refine ⟨fun i s t h => ?_, fun s d h1 h2 h4 h8 => ?_, fun s h10 h05 h02 _ => ?_⟩
  · rcases marks_of_exec h with rfl | ⟨f, hraises⟩
    · have hbits : ∀ k, s.markRefused.faultBit k = s.faultBit k := faultBit_congr rfl rfl rfl
      exact ⟨fun j _ hj => absurd (hbits j) hj, fun _ => hbits⟩
    · have ⟨_, hrefused, _⟩ := hraises
      refine ⟨fun j k hj hk => ?_, fun hne => absurd hrefused hne⟩
      exact Option.some.inj ((hraises.eq_some_of_ne hj).symm.trans (hraises.eq_some_of_ne hk))
  · rw [commandWriteRunsItsCode, if_neg h1, if_neg h2, if_neg h4, if_neg h8]
    exact ⟨_, rfl, rfl, rfl, rfl⟩
  · rw [exec_wr_cmd, runCommand_build, runBuild_of_unsupported h10 h05 h02]
    exact ⟨_, rfl, rfl, rfl⟩

end Sys2Proof.Machine
end

section
/-! SUPPORT. Which marks one step leaves, and that an access without meaning is what sets REFUSED (60_exceptions R114). -/

namespace Sys2Proof.Machine

/-- The step of an access without meaning sets REFUSED and takes the access off the queue (60_exceptions R114). -/
theorem step_of_meaningless {s : State} {w : HTWord} {rest : List HostEvent} (hp : s.pending = .access w :: rest)
    (hw : Meaningless w) : step s = .next s.popEvent.markRefused := by
  rcases decodeHt_cases w with ⟨hwrite, hd⟩ | ⟨hread, hzero, hd⟩ | ⟨_, _, hd⟩
  · rw [step_access hp hd]
    have haddr : Claims.NotWritable (htAddr w) := by simpa [Meaningless, hwrite] using hw
    obtain ⟨hcmd, hstore⟩ := storeReg_of_notWritable haddr s.popEvent (htData w)
    exact execWr_of_unwritable hcmd hstore
  · rw [step_access hp hd]
    have haddr : Claims.NotReadable (htAddr w) := by simpa [Meaningless, hread, hzero] using hw
    exact execRd_of_unreadable (loadReg_of_notReadable haddr s.popEvent)
  · exact step_rejected hp hd

/-- The step of an access raises at most one fault, or the access was without meaning and the step marks that. -/
theorem marks_of_step_access {s t : State} {w : HTWord} {rest : List HostEvent} (hp : s.pending = .access w :: rest)
    (h : step s = .next t) : (Meaningless w ∧ t = s.popEvent.markRefused) ∨ ∃ f, Raises f s.popEvent t := by
  rcases decodeHt_cases w with ⟨hwrite, hd⟩ | ⟨hread, _, hd⟩ | ⟨hread, hdata, hd⟩
  · rw [step_access hp hd] at h
    exact (marks_of_execWr h).imp_left fun ⟨haddr, ht⟩ => ⟨.inl ⟨hwrite, haddr⟩, ht⟩
  · rw [step_access hp hd] at h
    rcases marks_of_execRd h with ⟨hdata | haddr, ht⟩ | hraises
    · exact absurd rfl hdata
    · exact .inl ⟨.inr (.inl ⟨hread, haddr⟩), ht⟩
    · exact .inr ⟨_, hraises⟩
  · rw [step_rejected hp hd] at h
    cases h
    exact .inl ⟨.inr (.inr ⟨hread, hdata⟩), rfl⟩

/-- Every step resets, marks an access without meaning, or raises at most one fault (60_exceptions R114, R115). -/
theorem marks_of_step {s t : State} (h : step s = .next t) :
    (Claims.nextEvent s = some .reset ∧ t = s.popEvent.applyReset) ∨
      (∃ w, Claims.nextEvent s = some (.access w) ∧ Meaningless w ∧ t = s.popEvent.markRefused) ∨
      ∃ f, Raises f s.popEvent t := by
  rcases hp : s.pending with _ | ⟨_ | w, rest⟩
  · rw [step_idle hp] at h
    cases h
    exact .inr (.inr ⟨_, raises_none (by simp [hp]) rfl rfl rfl rfl⟩)
  · rcases marks_of_step_access hp h with ⟨hw, ht⟩ | hraises
    · exact .inr (.inl ⟨_, by rw [Claims.nextEvent, hp, List.head?_cons], hw, ht⟩)
    · exact .inr (.inr hraises)
  · rw [step_reset hp] at h
    cases h
    exact .inl ⟨by rw [Claims.nextEvent, hp, List.head?_cons], rfl⟩

/-- Settles O32: of the three things a step can do to REFUSED, the reset and a fault keep it, and a refusal ran an access
without meaning. -/
theorem refusedIsSetByMeaninglessAccessesAndNeverCleared :
    Obligations.RefusedIsSetByMeaninglessAccessesAndNeverCleared := by
  refine ⟨fun s w rest hp hw => ?_, fun s t h hset => ?_, fun s t h hclear hset => ?_⟩
  · rw [step_of_meaningless hp hw, popEvent_of_pending hp]
    rfl
  · rcases marks_of_step h with ⟨_, rfl⟩ | ⟨_, _, _, rfl⟩ | ⟨_, _, hrefused, _⟩
    · exact hset
    · rfl
    · exact hrefused.trans hset
  · rcases marks_of_step h with ⟨_, rfl⟩ | ⟨w, hnext, hw, _⟩ | ⟨_, _, hrefused, _⟩
    · exact absurd (hset.symm.trans hclear) (by decide)
    · exact ⟨w, hnext, hw⟩
    · exact absurd (hset.symm.trans (hrefused.trans hclear)) (by decide)

end Sys2Proof.Machine
end

section
/-! SUPPORT. Runs without a reset: marks are only added (60_exceptions R116, R128). -/

namespace Sys2Proof.Machine

/-- From `s` to `t` no event joined the queue and no mark was cleared. -/
def MarksGrow (s t : State) : Prop :=
  t.pending ⊆ s.pending ∧ (s.refused = true → t.refused = true) ∧ ∀ k, s.faultBit k = true → t.faultBit k = true

theorem MarksGrow.refl (s : State) : MarksGrow s s :=
  ⟨List.Subset.refl _, id, fun _ => id⟩

theorem MarksGrow.trans {s t u : State} (hst : MarksGrow s t) (htu : MarksGrow t u) : MarksGrow s u := by
  obtain ⟨hpending, hrefused, hbits⟩ := hst
  obtain ⟨hpending', hrefused', hbits'⟩ := htu
  exact ⟨List.Subset.trans hpending' hpending, hrefused' ∘ hrefused, fun k => hbits' k ∘ hbits k⟩

/-- Where no reset is pending at the start, none is at the end. -/
theorem MarksGrow.no_reset {s t : State} (h : MarksGrow s t) (hno : ∀ e ∈ s.pending, e ≠ HostEvent.reset) :
    ∀ e ∈ t.pending, e ≠ HostEvent.reset := by
  obtain ⟨hpending, _⟩ := h
  exact fun e he => hno e (hpending he)

/-- Where marks only grow, a state that is good at the end was good at the start (60_exceptions R128). -/
theorem MarksGrow.good {s t : State} (h : MarksGrow s t) {named : List FaultKind} (ht : t.good named = true) :
    s.good named = true := by
  obtain ⟨_, hrefused, hbits⟩ := h
  simp only [State.good, Bool.and_eq_true, Bool.not_eq_true', List.all_eq_true] at ht ⊢
  obtain ⟨htrefused, htbits⟩ := ht
  refine ⟨?_, fun k hk => ?_⟩
  · exact Bool.eq_false_iff.mpr fun hs => by simp [hrefused hs] at htrefused
  · exact Bool.eq_false_iff.mpr fun hs => by simpa [hbits k hs] using htbits k hk

/-- A step that does not reset only adds marks (60_exceptions R114, R116). -/
theorem marksGrow_of_step {s t : State} (hno : ∀ e ∈ s.pending, e ≠ HostEvent.reset) (h : step s = .next t) :
    MarksGrow s t := by
  have htail : s.popEvent.pending ⊆ s.pending := List.tail_subset _
  rcases marks_of_step h with ⟨hnext, _⟩ | ⟨_, _, _, rfl⟩ | ⟨f, hpending, hrefused, hbits⟩
  · exact absurd rfl (hno _ (List.mem_of_head? hnext))
  · exact ⟨htail, fun _ => rfl, fun k hk => hk⟩
  · refine ⟨hpending ▸ htail, hrefused.trans, fun k hk => ?_⟩
    have hpop : s.popEvent.faultBit k = s.faultBit k := faultBit_congr rfl rfl rfl k
    simp [hbits, hpop, hk]

/-- A run of one step more that goes on to its end took a step and ran on from there. -/
theorem exists_step_of_run {n : Nat} {s t : State} (h : Host.Core.run Sys2Proof.core (n + 1) s = .next t) :
    ∃ u, step s = .next u ∧ Host.Core.run Sys2Proof.core n u = .next t := by
  rcases hs : step s with u | f | r
  · exact ⟨u, rfl, (run_of_step hs).symm.trans h⟩
  · cases f
  · rw [run_of_refused hs] at h
    cases h

/-- A run with no reset pending only adds marks (60_exceptions R116, R128). -/
theorem marksGrow_of_run {n : Nat} {s t : State} (hno : ∀ e ∈ s.pending, e ≠ HostEvent.reset)
    (h : Host.Core.run Sys2Proof.core n s = .next t) : MarksGrow s t := by
  induction n generalizing s with
  | zero =>
    rw [run_zero] at h
    cases h
    exact .refl _
  | succ n ih =>
    obtain ⟨u, hstep, hrun⟩ := exists_step_of_run h
    have hgrow := marksGrow_of_step hno hstep
    exact hgrow.trans (ih (hgrow.no_reset hno) hrun)

/-- Settles O38: marks grow along both parts of the run. -/
theorem aGoodEndMeansAGoodRun : Obligations.AGoodEndMeansAGoodRun := by
  intro n m s t u named hno hst htu hu
  have hgrow := marksGrow_of_run hno hst
  have ht := (marksGrow_of_run (hgrow.no_reset hno) htu).good hu
  exact ⟨ht, hgrow.good ht⟩

end Sys2Proof.Machine
end

section
/-! SUPPORT. No command reads a fault bit (60_exceptions R116): a rule per shape of a command, and then each command by its
shape. -/

namespace Sys2Proof.Machine

/-- The state with its three fault bits set to given values. -/
def State.withFaults (s : State) (illegal func range : Bool) : State :=
  { s with errIllegal := illegal, errFunc := func, errRange := range }

/-- From states that differ in their fault bits alone, `f` leads to states that differ in their fault bits alone. -/
def FaultsIgnored (f : State → Host.Outcome State Fault Refusal) : Prop :=
  ∀ s t b1 b2 b3, f s = .next t → ∃ c1 c2 c3, f (s.withFaults b1 b2 b3) = .next (t.withFaults c1 c2 c3)

/-- An update that leaves the other elements as they were whatever the fault bits are. -/
theorem faultsIgnored_next {f : State → State}
    (h : ∀ s b1 b2 b3, ∃ c1 c2 c3, f (s.withFaults b1 b2 b3) = (f s).withFaults c1 c2 c3) :
    FaultsIgnored fun s => .next (f s) := by
  intro s t b1 b2 b3 ht
  cases ht
  obtain ⟨c1, c2, c3, hf⟩ := h s b1 b2 b3
  exact ⟨c1, c2, c3, congrArg _ hf⟩

/-- A choice by a condition that does not read the fault bits. -/
theorem faultsIgnored_ite {c : State → Prop} [DecidablePred c] {f g : State → Host.Outcome State Fault Refusal}
    (hc : ∀ s b1 b2 b3, c (s.withFaults b1 b2 b3) ↔ c s) (hf : FaultsIgnored f) (hg : FaultsIgnored g) :
    FaultsIgnored fun s => if c s then f s else g s := by
  intro s t b1 b2 b3 ht
  simp only [hc] at ht ⊢
  by_cases hs : c s
  · rw [if_pos hs] at ht ⊢
    exact hf s t b1 b2 b3 ht
  · rw [if_neg hs] at ht ⊢
    exact hg s t b1 b2 b3 ht

/-- A BUILD that faults ignores the fault bits (41_frame_encoder R80, R82). -/
theorem faultsIgnored_failBuild (k : FaultKind) : FaultsIgnored fun s => .next (s.failBuild k) :=
  faultsIgnored_next fun s b1 b2 b3 => by
    cases k with
    | errIllegal => exact ⟨true, b2, b3, rfl⟩
    | errFunc => exact ⟨b1, true, b3, rfl⟩
    | errRange => exact ⟨b1, b2, true, rfl⟩

/-- A BUILD variant whose check and payload do not read the fault bits (41_frame_encoder R82). -/
theorem faultsIgnored_buildFrame {ok : State → Bool} {p : State → List Byte}
    (hok : ∀ s b1 b2 b3, ok (s.withFaults b1 b2 b3) = ok s) (hp : ∀ s b1 b2 b3, p (s.withFaults b1 b2 b3) = p s) :
    FaultsIgnored fun s => buildFrame (ok s) (p s) s := by
  refine faultsIgnored_ite (c := fun s => ok s = true) (fun s b1 b2 b3 => by rw [hok])
    (faultsIgnored_next fun s b1 b2 b3 => ⟨b1, b2, b3, ?_⟩) (faultsIgnored_failBuild .errRange)
  rw [hp]
  rfl

/-- BUILD (41_frame_encoder R80). -/
theorem faultsIgnored_runBuild : FaultsIgnored runBuild :=
  faultsIgnored_ite (fun _ _ _ _ => Iff.rfl) (faultsIgnored_buildFrame (fun _ _ _ _ => rfl) fun _ _ _ _ => rfl) <|
    faultsIgnored_ite (fun _ _ _ _ => Iff.rfl) (faultsIgnored_buildFrame (fun _ _ _ _ => rfl) fun _ _ _ _ => rfl) <|
      faultsIgnored_ite (fun _ _ _ _ => Iff.rfl) (faultsIgnored_buildFrame (fun _ _ _ _ => rfl) fun _ _ _ _ => rfl) <|
        faultsIgnored_failBuild .errFunc

/-- VALIDATE (42_validator R91). -/
theorem faultsIgnored_execValidate : FaultsIgnored execValidate :=
  faultsIgnored_ite (fun _ _ _ _ => Iff.rfl) (faultsIgnored_next fun _ b1 b2 _ => ⟨b1, b2, true, rfl⟩) <|
    faultsIgnored_ite (fun _ _ _ _ => Iff.rfl) (faultsIgnored_next fun _ b1 b2 b3 => ⟨b1, b2, b3, rfl⟩) <|
      faultsIgnored_next fun _ b1 b2 b3 => ⟨b1, b2, b3, rfl⟩

/-- Every command code, legal or not (43_host_access R102). -/
theorem faultsIgnored_runCommand (code : Byte) : FaultsIgnored (runCommand code) :=
  faultsIgnored_ite (fun _ _ _ _ => Iff.rfl) (faultsIgnored_next fun _ b1 b2 b3 => ⟨b1, b2, b3, rfl⟩) <|
    faultsIgnored_ite (fun _ _ _ _ => Iff.rfl) (faultsIgnored_next fun _ b1 b2 b3 => ⟨b1, b2, b3, rfl⟩) <|
      faultsIgnored_ite (fun _ _ _ _ => Iff.rfl) faultsIgnored_runBuild <|
        faultsIgnored_ite (fun _ _ _ _ => Iff.rfl) faultsIgnored_execValidate <|
          faultsIgnored_next fun _ _ b2 b3 => ⟨true, b2, b3, rfl⟩

/-- Settles O39: a write of CMD runs its command, and no branch of a command reads a fault bit. -/
theorem faultBitsDoNotChangeCommands : Obligations.FaultBitsDoNotChangeCommands :=
  fun s t b1 b2 b3 d h => faultsIgnored_runCommand d s t b1 b2 b3 h

end Sys2Proof.Machine
end

section
/-! SUPPORT. The host's check phase and its classes of a reply (60_exceptions R123, R124). -/

namespace Sys2Proof.Machine

/-- Bit 0 of STATUS is VALID (10_state R20). -/
theorem getLsbD_statusByte_zero (s : State) : s.statusByte.getLsbD 0 = s.valid := by
  rw [State.statusByte, BitVec.getLsbD_append, BitVec.getLsbD_ofBool]
  rfl

/-- The class of a reply that is not empty is the validator's answer (60_exceptions R124). -/
theorem validate_iff_classify {r : List Byte} (hr : r ≠ []) :
    (validate r = true ↔ classify r = .crcValid) ∧ (validate r = false ↔ classify r = .crcInvalid) := by
  rw [classify, if_neg (mt List.length_eq_zero_iff.mp hr)]
  cases validate r
  · simp
  · simp

/-- Settles O27: the run of LOADRX and VALIDATE, then the read of STATUS, whose bit 0 is the validator's answer. -/
theorem checkPhaseReportsTheReplyClass : Obligations.CheckPhaseReportsTheReplyClass := by
  refine ⟨fun s r rest hr hfits hp => ?_, rfl⟩
  rw [Asm.checkPhase, List.map_append, List.append_assoc] at hp
  have hvalidate := run_loadrx_validate r s (.access (Asm.rd .status) :: rest) hfits hp
  refine ⟨_, _, (run_add (m := 1) hvalidate).trans (run_of_step (step_asm_rd rfl rfl)), rfl, rfl, ?_⟩
  rw [getLsbD_statusByte_zero]
  exact validate_iff_classify hr

end Sys2Proof.Machine
end

section
/-! SUPPORT. What the platform's reset leaves, and that no other step clears a fault bit (70_reset R130, R131). -/

namespace Sys2Proof.Machine

/-- The reset clears the three fault bits (70_reset R131). -/
theorem State.applyReset_faultBit (s : State) (k : FaultKind) : s.applyReset.faultBit k = false := by
  cases k <;> rfl

/-- The reset clears the eleven operand registers (70_reset R130). -/
theorem State.eq_zero_of_mem_operandBytes_applyReset {s : State} {b : Byte} (h : b ∈ s.applyReset.operandBytes) :
    b = 0x00#8 := by
  simpa [State.operandBytes] using h

/-- After a reset each TXBUF byte is that reset's draw (10_state R23, log 4). -/
theorem State.txByte_applyReset (s : State) (i : Nat) :
    s.applyReset.txByte i = Config.draw (s.resets + 1) (txBase + i) := rfl

/-- After a reset each RXBUF byte is that reset's draw (10_state R23, log 4). -/
theorem State.rxByte_applyReset (s : State) (i : Nat) :
    s.applyReset.rxByte i = Config.draw (s.resets + 1) (rxBase + i) := rfl

/-- A step whose next event is the reset is the reset (70_reset R130). -/
theorem step_of_nextEvent_reset {s : State} (h : Claims.nextEvent s = some .reset) :
    step s = .next s.popEvent.applyReset := by
  obtain ⟨_, hp⟩ := List.head?_eq_some_iff.mp h
  exact step_reset hp

/-- A step clears a fault bit by the reset alone: an access is refused or adds marks (70_reset R131). -/
theorem nextEvent_reset_of_faultBit_cleared {s t : State} {k : FaultKind} (h : step s = .next t)
    (hset : s.faultBit k = true) (hclear : t.faultBit k = false) : Claims.nextEvent s = some .reset := by
  have hpop : s.popEvent.faultBit k = true := (faultBit_congr rfl rfl rfl k).trans hset
  rcases marks_of_step h with ⟨hreset, _⟩ | ⟨_, _, _, rfl⟩ | ⟨f, _, _, hbits⟩
  · exact hreset
  · have hkept : s.popEvent.markRefused.faultBit k = s.popEvent.faultBit k := faultBit_congr rfl rfl rfl k
    simp [hkept, hpop] at hclear
  · simp [hbits, hpop] at hclear

/-- Settles O37: of what a step can do to the marks, only the reset clears one, and VALID after VALIDATE is what
`valid_of_execValidate` says. -/
theorem onlyResetClearsFaultBits : Obligations.OnlyResetClearsFaultBits := by
  refine ⟨fun s t k => nextEvent_reset_of_faultBit_cleared, fun s t h hnext => ?_, fun s t => valid_of_execValidate⟩
  rw [step_of_nextEvent_reset hnext] at h
  cases h
  exact ⟨State.applyReset_faultBit _, State.applyReset_valid _⟩

/-- Settles O44: the fields of `State.applyReset`, at the state without the reset event. -/
theorem resetEventSetsEveryElement : Obligations.ResetEventSetsEveryElement := by
  intro s rest hp
  rw [step_reset hp, popEvent_of_pending hp]
  exact ⟨_, rfl, rfl, fun _ => State.eq_zero_of_mem_operandBytes_applyReset, rfl, rfl, rfl, rfl, rfl, rfl, rfl,
    State.txByte_applyReset _, State.rxByte_applyReset _, rfl, rfl⟩

end Sys2Proof.Machine
end

section
/-! SUPPORT. Every operation answers a next state: a fault raises a bit and a refusal sets REFUSED, and neither stops the
machine (60_exceptions R110, R114, log 6). -/

namespace Sys2Proof.Machine

/-- A BUILD variant writes its frame or faults (41_frame_encoder R82). -/
theorem exists_next_buildFrame (ok : Bool) (p : List Byte) (s : State) : ∃ t, buildFrame ok p s = .next t := by
  cases ok with
  | true => exact ⟨_, buildFrame_ok p s⟩
  | false => exact ⟨_, buildFrame_fault p s⟩

/-- BUILD runs one of its variants or faults (41_frame_encoder R80). -/
theorem exists_next_runBuild (s : State) : ∃ t, runBuild s = .next t := by
  unfold runBuild
  split_ifs
  · exact exists_next_buildFrame s.missionOk s.missionPayload s
  · exact exists_next_buildFrame s.addrOk s.launchPayload s
  · exact exists_next_buildFrame s.addrOk s.readTorPayload s
  · exact ⟨_, rfl⟩

/-- VALIDATE faults past its bound, and within it leaves a known or an unknown VALID (42_validator R91). -/
theorem exists_next_execValidate (s : State) : ∃ t, execValidate s = .next t := by
  rcases Nat.lt_or_ge 256 s.rxlen.toNat with hover | hlen
  · exact ⟨_, execValidate_over hover⟩
  · by_cases hknown : s.responseKnown = true
    · exact ⟨_, execValidate_known hlen hknown⟩
    · exact ⟨_, execValidate_unknown hlen hknown⟩

/-- Every command code runs a command or faults (43_host_access R102). -/
theorem exists_next_runCommand (code : Byte) (s : State) : ∃ t, runCommand code s = .next t := by
  unfold runCommand
  split_ifs
  · exact ⟨_, exec_crcInit s⟩
  · exact ⟨_, exec_crcUpdate s⟩
  · exact exists_next_runBuild s
  · exact exists_next_execValidate s
  · exact ⟨_, rfl⟩

/-- A write runs a command, stores its byte, or is refused (43_host_access R100). -/
theorem exists_next_execWr (a : Addr) (d : Byte) (s : State) : ∃ t, execWr a d s = .next t := by
  by_cases hcmd : regOf a = some .cmd
  · obtain rfl : addrOf .cmd = a := addrOf_of_regOf a .cmd hcmd
    exact exists_next_runCommand d s
  · rcases hstore : (regOf a).bind fun r => s.storeReg r d with _ | t
    · exact ⟨_, execWr_of_unwritable hcmd hstore⟩
    · obtain ⟨r, hr, ht⟩ := Option.bind_eq_some_iff.mp hstore
      exact ⟨t, execWr_of_storeReg hr ht⟩

/-- A read returns a byte or is refused, for its data field or its address (43_host_access R101). -/
theorem exists_next_execRd (a : Addr) (d : Byte) (s : State) : ∃ t, execRd a d s = .next t := by
  by_cases hd : d = 0x00#8
  · subst hd
    rcases hload : (regOf a).bind s.loadReg with _ | b
    · exact ⟨_, execRd_of_unreadable hload⟩
    · obtain ⟨r, hr, hb⟩ := Option.bind_eq_some_iff.mp hload
      exact ⟨_, execRd_of_loadReg hr hb⟩
  · exact ⟨_, if_pos hd⟩

/-- Every instruction answers a next state. -/
theorem exists_next_exec (i : Instr) (s : State) : ∃ t, exec i s = .next t := by
  cases i with
  | crcInit => exact ⟨_, exec_crcInit s⟩
  | crcUpdate => exact ⟨_, exec_crcUpdate s⟩
  | validate => exact exists_next_execValidate s
  | buildMission => exact exists_next_buildFrame s.missionOk s.missionPayload s
  | buildLaunch => exact exists_next_buildFrame s.addrOk s.launchPayload s
  | buildReadTor => exact exists_next_buildFrame s.addrOk s.readTorPayload s
  | wr a d => exact exists_next_execWr a d s
  | rd a d => exact exists_next_execRd a d s

/-- Every step answers a next state: it waits, resets, runs an instruction, or refuses a reserved word (10_state R11). -/
theorem exists_next_step (s : State) : ∃ t, step s = .next t := by
  rcases hp : s.pending with _ | ⟨w | _, rest⟩
  · exact ⟨_, step_idle hp⟩
  · rcases hd : decode (.ht w) with why | i
    · exact ⟨_, step_rejected hp hd⟩
    · rw [step_access hp hd]
      exact exists_next_exec i s.popEvent
  · exact ⟨_, step_reset hp⟩

/-- Settles O43: no branch of a step, and none of an instruction, faults or refuses with an outcome that stops. -/
theorem everyStepCompletes : Obligations.EveryStepCompletes :=
  ⟨exists_next_step, exists_next_exec⟩

end Sys2Proof.Machine
end
